-- ==== Sys2Proof/Word.lean ====
section
/-! DEFINITION. The word and byte types of the block and the closed kinds the spec names: algorithms, operations, digests. -/

namespace Sys2Proof

/-- A 32-bit register word, the unit of the REG space (20_memory R50). -/
abbrev Word := BitVec 32

/-- A byte of the buffer, of a digest, or of a formatted string. -/
abbrev Byte := BitVec 8

/-- AlgorithmKind, "one of {CRC16, CRC32, MD5, SHA1, SHA256}" (00_scope glossary). Its three-bit
code is `AlgorithmKind.code` (30_encoding R72). -/
inductive AlgorithmKind where
  | crc16 | crc32 | md5 | sha1 | sha256
  deriving DecidableEq, Repr

/-- The three operations of a command (30_encoding R71). -/
inductive Operation where
  | run | compute | format
  deriving DecidableEq, Repr

/-- The three shapes of a digest (40_command_model R100). -/
inductive Digest where
  /-- A CRC-16 value. -/
  | u16 (v : BitVec 16)
  /-- A CRC-32 value. -/
  | u32 (v : BitVec 32)
  /-- A hash digest, in the hash primitive's own byte order. -/
  | bytes (b : List Byte)
  deriving DecidableEq, Repr

end Sys2Proof
end

