-- ==== Sys2Proof/Config.lean ====
section
/-! DEFINITION. What the spec leaves open as parameters (00_scope R8) and the model's free values. None of the opaque constants has a body: nothing can be proved of a value of theirs. -/

namespace Sys2Proof.Config

/-- `P_LEN_BITS` = 32 (00_scope R8). -/
abbrev lenBits : Nat := 32

/-- Number of byte addresses of the BUF space, `2 ^ P_LEN_BITS` (20_memory R50). -/
abbrev bufSize : Nat := 2 ^ lenBits

/-- Entries 1 to 255 of `P_CRC16_TABLE`, which are OPEN (41_crc16 R130). Entry 0 of the device's
table is fixed, so `Machine.t16` never asks this function for index 0. Log 2. -/
opaque crc16Entry : BitVec 8 → BitVec 16

/-- `HASH_MD5` on non-empty input: an oracle (43_hash_delegation R170). H-LEN is the result's type. Log 3. -/
opaque md5 : List Byte → Vector Byte 16

/-- `HASH_SHA1` on non-empty input: an oracle (43_hash_delegation R170). Log 3. -/
opaque sha1 : List Byte → Vector Byte 20

/-- `HASH_SHA256` on non-empty input: an oracle (43_hash_delegation R170). Log 3. -/
opaque sha256 : List Byte → Vector Byte 32

/-- The byte that a BUF address nothing has written holds: any value (93 U17, "BUF arbitrary"). Log 4. -/
opaque unwrittenByte : Nat → Byte

/-- The n-th free result byte, drawn where 60_exceptions R223 gives a result no value. Log 7. -/
opaque freeByte : Nat → Byte

end Sys2Proof.Config
end

