-- ==== Sys2Proof/Machine/Formatter.lean ====
section
/-! DEFINITION. The digest formatter as pure functions (44_digest_formatter R190 to R194), and the byte layout of a digest (10_state R33). -/

namespace Sys2Proof.Machine

/-- One hexadecimal digit as an ASCII code (44_digest_formatter R190). -/
def hexdigit (n : BitVec 4) : Byte :=
  if n ≤ 9 then 0x30 + n.setWidth 8 else 0x41 + (n.setWidth 8 - 10)

/-- A 16-bit value as 4 digits, most significant first (44_digest_formatter R191). -/
def fmtU16 (v : BitVec 16) : List Byte :=
  [hexdigit (v.extractLsb' 12 4), hexdigit (v.extractLsb' 8 4),
   hexdigit (v.extractLsb' 4 4), hexdigit (v.extractLsb' 0 4)]

/-- A 32-bit value as 8 digits, most significant first (44_digest_formatter R192). -/
def fmtU32 (v : BitVec 32) : List Byte :=
  [hexdigit (v.extractLsb' 28 4), hexdigit (v.extractLsb' 24 4),
   hexdigit (v.extractLsb' 20 4), hexdigit (v.extractLsb' 16 4),
   hexdigit (v.extractLsb' 12 4), hexdigit (v.extractLsb' 8 4),
   hexdigit (v.extractLsb' 4 4), hexdigit (v.extractLsb' 0 4)]

/-- Two digits per byte, in sequence order, high nibble first (44_digest_formatter R193). -/
def fmtBytes : List Byte → List Byte
  | [] => []
  | b :: rest => hexdigit (b.extractLsb' 4 4) :: hexdigit (b.extractLsb' 0 4) :: fmtBytes rest

/-- The string of a digest by its shape alone: what the finish steps write (41 R138, 42 R159, 43 R175). -/
def fmtDigest : Digest → List Byte
  | .u16 v => fmtU16 v
  | .u32 v => fmtU32 v
  | .bytes b => fmtBytes b

/-- Number of digest bytes of a kind (10_state R28). -/
def digestLength : AlgorithmKind → Nat
  | .crc16 => 2
  | .crc32 => 4
  | .md5 => 16
  | .sha1 => 20
  | .sha256 => 32

/-- Number of characters of a kind's string (10_state R29). -/
def stringLength : AlgorithmKind → Nat
  | .crc16 => 4
  | .crc32 => 8
  | .md5 => 32
  | .sha1 => 40
  | .sha256 => 64

/-- The formatter of the source's contract; `none` where R194 says "any other pairing -> not defined". -/
def format : Digest → AlgorithmKind → Option (List Byte)
  | .u16 v, .crc16 => some (fmtU16 v)
  | .u32 v, .crc32 => some (fmtU32 v)
  | .bytes b, .md5 => if b.length = 16 then some (fmtBytes b) else none
  | .bytes b, .sha1 => if b.length = 20 then some (fmtBytes b) else none
  | .bytes b, .sha256 => if b.length = 32 then some (fmtBytes b) else none
  | _, _ => none

/-- The bytes of a digest in DIG's order: a CRC least significant byte first, a hash in its own order (10_state R33). -/
def digestBytes : Digest → List Byte
  | .u16 v => [v.extractLsb' 0 8, v.extractLsb' 8 8]
  | .u32 v => [v.extractLsb' 0 8, v.extractLsb' 8 8, v.extractLsb' 16 8, v.extractLsb' 24 8]
  | .bytes b => b

end Sys2Proof.Machine
end

