-- ==== Sys2Proof/Syntax.lean ====
section
/-! DEFINITION. The instructions: one constructor per row of spec/opcode_table.json (30_encoding R75). Every operand is implicit (R74), so no constructor has a field. -/

namespace Sys2Proof

/-- The fifteen legal commands (30_encoding R75). -/
inductive Instr where
  /-- RUN.CRC16, 41_crc16 R138. -/
  | runCrc16
  /-- COMPUTE.CRC16, 41_crc16 R137. -/
  | computeCrc16
  /-- FORMAT.CRC16, 44_digest_formatter R196. -/
  | formatCrc16
  /-- RUN.CRC32, 42_crc32 R159. -/
  | runCrc32
  /-- COMPUTE.CRC32, 42_crc32 R158. -/
  | computeCrc32
  /-- FORMAT.CRC32, 44_digest_formatter R197. -/
  | formatCrc32
  /-- RUN.MD5, 43_hash_delegation R175. -/
  | runMd5
  /-- COMPUTE.MD5, 43_hash_delegation R174. -/
  | computeMd5
  /-- FORMAT.MD5, 44_digest_formatter R198. -/
  | formatMd5
  /-- RUN.SHA1, 43_hash_delegation R177. -/
  | runSha1
  /-- COMPUTE.SHA1, 43_hash_delegation R176. -/
  | computeSha1
  /-- FORMAT.SHA1, 44_digest_formatter R199. -/
  | formatSha1
  /-- RUN.SHA256, 43_hash_delegation R179. -/
  | runSha256
  /-- COMPUTE.SHA256, 43_hash_delegation R178. -/
  | computeSha256
  /-- FORMAT.SHA256, 44_digest_formatter R200. -/
  | formatSha256
  deriving DecidableEq, Repr

end Sys2Proof
end

