-- ==== Sys2Proof/Decode.lean ====
section
/-! DEFINITION. The command word: field encodings (30_encoding R70 to R73), the decoder, total on 32-bit words and rejecting by name (R76, R77), and the encoder. -/

namespace Sys2Proof

/-- OP, bits 1:0 of a command word (30_encoding R70). -/
def opField (w : Word) : BitVec 2 := w.extractLsb' 0 2

/-- ALG, bits 4:2 of a command word (30_encoding R70). -/
def algField (w : Word) : BitVec 3 := w.extractLsb' 2 3

/-- RSVD, bits 31:5 of a command word (30_encoding R70). -/
def rsvdField (w : Word) : BitVec 27 := w.extractLsb' 5 27

/-- The value of OP (30_encoding R71). -/
def Operation.code : Operation → BitVec 2
  | .run => 0b00
  | .compute => 0b01
  | .format => 0b10

/-- The value of ALG and of DKIND (30_encoding R72). -/
def AlgorithmKind.code : AlgorithmKind → BitVec 3
  | .crc16 => 0b000
  | .crc32 => 0b001
  | .md5 => 0b010
  | .sha1 => 0b011
  | .sha256 => 0b100

/-- The operation an OP value names; 0b11 is reserved (30_encoding R71). -/
def Operation.ofCode (c : BitVec 2) : Option Operation :=
  if c = 0b00 then some .run
  else if c = 0b01 then some .compute
  else if c = 0b10 then some .format
  else none

/-- The algorithm an ALG value names; 0b101 to 0b111 name none (30_encoding R72). -/
def AlgorithmKind.ofCode (c : BitVec 3) : Option AlgorithmKind :=
  if c = 0b000 then some .crc16
  else if c = 0b001 then some .crc32
  else if c = 0b010 then some .md5
  else if c = 0b011 then some .sha1
  else if c = 0b100 then some .sha256
  else none

/-- The command of an operation and an algorithm (30_encoding R75). -/
def instrOf : Operation → AlgorithmKind → Instr
  | .run, .crc16 => .runCrc16
  | .compute, .crc16 => .computeCrc16
  | .format, .crc16 => .formatCrc16
  | .run, .crc32 => .runCrc32
  | .compute, .crc32 => .computeCrc32
  | .format, .crc32 => .formatCrc32
  | .run, .md5 => .runMd5
  | .compute, .md5 => .computeMd5
  | .format, .md5 => .formatMd5
  | .run, .sha1 => .runSha1
  | .compute, .sha1 => .computeSha1
  | .format, .sha1 => .formatSha1
  | .run, .sha256 => .runSha256
  | .compute, .sha256 => .computeSha256
  | .format, .sha256 => .formatSha256

/-- Why a word is no command (30_encoding R76). -/
inductive Illegal where
  /-- RSVD is not 0: InvalidCommand (60_exceptions R211). -/
  | reservedBits
  /-- OP is 0b11: InvalidCommand (60_exceptions R212). -/
  | reservedOperation
  /-- ALG names no kind: InvalidAlgorithm (60_exceptions R213). -/
  | noSuchAlgorithm
  deriving DecidableEq, Repr

/-- Decode a command word. The checks come in the order of 60_exceptions R217: RSVD, OP, ALG. -/
def decode (w : Word) : Except Illegal Instr :=
  if rsvdField w ≠ 0 then .error .reservedBits
  else
    match Operation.ofCode (opField w) with
    | none => .error .reservedOperation
    | some op =>
      match AlgorithmKind.ofCode (algField w) with
      | none => .error .noSuchAlgorithm
      | some alg => .ok (instrOf op alg)

/-- A legal word by its fields alone: RSVD = 0, OP is not 0b11, ALG is at most 0b100 (30_encoding R75, R76). -/
def legalWord (w : Word) : Bool :=
  rsvdField w == 0 && opField w != 0b11 && decide (algField w ≤ 0b100)

/-- The operation of a command. -/
def Instr.operation : Instr → Operation
  | .runCrc16 | .runCrc32 | .runMd5 | .runSha1 | .runSha256 => .run
  | .computeCrc16 | .computeCrc32 | .computeMd5 | .computeSha1 | .computeSha256 => .compute
  | .formatCrc16 | .formatCrc32 | .formatMd5 | .formatSha1 | .formatSha256 => .format

/-- The algorithm of a command. -/
def Instr.algorithm : Instr → AlgorithmKind
  | .runCrc16 | .computeCrc16 | .formatCrc16 => .crc16
  | .runCrc32 | .computeCrc32 | .formatCrc32 => .crc32
  | .runMd5 | .computeMd5 | .formatMd5 => .md5
  | .runSha1 | .computeSha1 | .formatSha1 => .sha1
  | .runSha256 | .computeSha256 | .formatSha256 => .sha256

/-- The word of a command: `(ALG << 2) | OP` with RSVD = 0 (30_encoding R75). -/
def encode (i : Instr) : Word :=
  (i.algorithm.code.setWidth 32 <<< 2) ||| i.operation.code.setWidth 32

/-- The instruction the decoder reads from the word `w` of `nbits` bits, the bits above `nbits` being 0. -/
def decodeTableWord (nbits w : Nat) : Option Instr :=
  match decode (BitVec.ofNat 32 (w % 2 ^ nbits)) with
  | .ok i => some i
  | .error _ => none

end Sys2Proof
end

