-- ==== Sys2Proof/Machine/State.lean ====
section
/-! DEFINITION. The state of the block and of what drives it, as plain data (10_state R20 to R41; 20_memory R50; 30_encoding R78, R79), and the state after reset. -/

namespace Sys2Proof.Machine

/-- STATE, the sequencer's state (10_state R21). -/
inductive SeqState where
  | idle | running | halted
  deriving DecidableEq, Repr

/-- HREQ, the one request to the HashUnit (10_state R39). -/
inductive HashRequest where
  | none | pending | answered
  deriving DecidableEq, Repr

/-- STATUS.FCODE (60_exceptions R210). Codes 5 to 15 are never produced and are left out (93 U8). Log 12. -/
inductive FaultCode where
  | none | invalidAlgorithm | invalidCommand | digestNotValid | digestKindMismatch
  deriving DecidableEq, Repr

/-- Who takes the next step (00_scope R3); `platform` raises reset (70_reset_and_hazards R240). -/
inductive Agent where
  | engine | hashUnit | host | platform
  deriving DecidableEq, Repr

/-- One access of the host, or one of the pseudo-statements that expand while they run
(30_encoding R78, R79). The other statements are lists of these, in HostPort.lean. -/
inductive HostOp where
  /-- `MemWrite(BUF, a, 1, v)`. -/
  | bufWrite (a : Nat) (v : Byte)
  /-- Read one byte of BUF (20_memory R50: the host reads BUF). -/
  | bufRead (a : Nat)
  /-- Write `v` at a REG offset, `width` bytes wide; only aligned 4-byte accesses are admitted (20_memory R51). -/
  | regWrite (offset width : Nat) (v : Word)
  /-- Read at a REG offset, `width` bytes wide. -/
  | regRead (offset width : Nat)
  /-- `WAIT`: read STATUS until BUSY = 0. -/
  | wait
  /-- `RDSTR`: read OUTLEN, then the OUT words it covers. -/
  | readString
  /-- `RDDIG`: read DLEN, then the DIGEST words it covers. -/
  | readDigest
  deriving DecidableEq, Repr

/-- What a read of the host returned (70_reset_and_hazards R254). -/
inductive HostRead where
  /-- The word at a REG offset. -/
  | reg (offset : Nat) (v : Word)
  /-- The byte at a BUF address. -/
  | buf (a : Nat) (v : Byte)
  deriving DecidableEq, Repr

/-- BUF as data: the bytes that have been written, by rising address (`Memory.wf`). -/
abbrev Memory := List Host.Cell

/-- The whole state. Block state is 10_state R20; BUF, the host and the schedule stand beside it. -/
structure State where
  /-- STATE (R21); STATUS.BUSY and STATUS.FATAL are views of it. -/
  seq : SeqState
  /-- STATUS.DONE (R26). -/
  done : Bool
  /-- STATUS.DVALID (R26). -/
  dvalid : Bool
  /-- STATUS.FCODE (R26). -/
  fcode : FaultCode
  /-- STATUS.DKIND (R26). -/
  dkind : AlgorithmKind
  /-- LEN (R27). -/
  len : Word
  /-- DLEN (R28). -/
  dlen : Word
  /-- OUTLEN (R29). -/
  outlen : Word
  /-- DIG[0..31] (R33). -/
  dig : Vector Byte 32
  /-- OUTC[0..63] (R34). -/
  outc : Vector Byte 64
  /-- ACC16 (R37). -/
  acc16 : BitVec 16
  /-- ACC32 (R37). -/
  acc32 : BitVec 32
  /-- IDX (R23, R38). -/
  idx : Word
  /-- LEN_L (R38). -/
  lenL : Word
  /-- CUR_OP (R38). -/
  curOp : Operation
  /-- CUR_ALG (R38). -/
  curAlg : AlgorithmKind
  /-- HREQ (R39). -/
  hreq : HashRequest
  /-- HANS (R39). -/
  hans : List Byte
  /-- The BUF space (20_memory R50, R52). -/
  buf : Memory
  /-- CFAULT, model-only (R40). -/
  cfault : Bool
  /-- REFUSED, model-only (R40). -/
  refused : Bool
  /-- The model's own: a model-only fault struck the command in progress (60_exceptions R223). Log 7, 8. -/
  tainted : Bool
  /-- The model's own: counter of the free result bytes drawn so far. Log 7. -/
  freeCtr : Nat
  /-- What the host has still to do, in program order (20_memory R60). Log 6. -/
  hostq : List HostOp
  /-- What the host's reads returned, the latest first (70_reset_and_hazards R254). Log 14. -/
  reads : List HostRead
  /-- Who moves next; when empty, `defaultAgent` decides. Log 5. -/
  sched : List Agent
  deriving DecidableEq, Repr

/-- Why the model stops with a fault. No command raises one. -/
inductive Fault where
  /-- Raised by a host access to a BUF address of 2^32 or above, which 20_memory R50 says does not
  exist. Safe: the machine stops where the spec gives no behaviour. Log 9. -/
  | noSuchBufAddress
  deriving DecidableEq, Repr

/-- Why the model gives no meaning. -/
inductive Refusal where
  /-- Raised by an arm of `exec` for an instruction without a meaning; no arm is such now. Safe. -/
  | notModelled (mnemonic : String)
  deriving DecidableEq, Repr

/-- The state after reset with nothing launched (10_state R41; 70_reset_and_hazards R240, R255).
ACC16, ACC32, IDX, LEN_L, CUR_OP, CUR_ALG and HANS have no reset value in the spec: DESIGN CHOICE, log 1. -/
def State.reset : State where
  seq := .idle
  done := false
  dvalid := false
  fcode := .none
  dkind := .crc16
  len := 0
  dlen := 0
  outlen := 0
  dig := Vector.replicate 32 0
  outc := Vector.replicate 64 0
  acc16 := 0
  acc32 := 0
  idx := 0
  lenL := 0
  curOp := .run
  curAlg := .crc16
  hreq := .none
  hans := List.replicate 32 0
  buf := []
  cfault := false
  refused := false
  tainted := false
  freeCtr := 0
  hostq := []
  reads := []
  sched := []

end Sys2Proof.Machine
end

