-- ==== Sys2Proof/Machine/Ops.lean ====
section
/-! DEFINITION. The named operations: BUF as a map, the writes of the result registers, taking a fatal event and the reset that alone ends it, the model-only marks, and the accept and finish steps every command shares (40_command_model). -/

namespace Sys2Proof.Machine

/-! ## BUF -/

/-- Keys rise strictly from above `lo`, when there is a `lo`. -/
def Memory.rising : Option Nat → Memory → Bool
  | _, [] => true
  | lo, (k, _) :: m =>
    (match lo with
      | none => true
      | some l => decide (l < k)) && Memory.rising (some k) m

/-- The canonical form: addresses strictly rising, all inside BUF (20_memory R50). An unlisted address
holds no fixed byte, so no entry can repeat it. Log 4. -/
def Memory.wf (m : Memory) : Bool :=
  Memory.rising none m && m.all fun c => decide (c.1 < Config.bufSize)

/-- The byte last written at an address, if there is one. -/
def Memory.lookup : Memory → Nat → Option Byte
  | [], _ => none
  | (k, v) :: m, a => if k = a then some v else Memory.lookup m a

/-- `MemRead(BUF, a, 1)` (20_memory R52); a byte that nothing has written is a free value (log 4). -/
def Memory.read (m : Memory) (a : Nat) : Byte :=
  (Memory.lookup m a).getD (Config.unwrittenByte a)

/-- `MemWrite(BUF, a, 1, v)` (20_memory R52), keeping the canonical form. -/
def Memory.write : Memory → Nat → Byte → Memory
  | [], a, v => [(a, v)]
  | (k, w) :: m, a, v =>
    if a < k then (a, v) :: (k, w) :: m
    else if a = k then (a, v) :: m
    else (k, w) :: Memory.write m a v

/-- The `n` bytes from address `a` on, in order. -/
def Memory.range (m : Memory) (a : Nat) : Nat → List Byte
  | 0 => []
  | n + 1 => Memory.read m a :: Memory.range m (a + 1) n

/-- `BUF[0..LEN_L)`, the buffer of the command in progress (20_memory R52). -/
def bufContents (s : State) : List Byte := Memory.range s.buf 0 s.lenL.toNat

/-! ## Result storage -/

/-- `new` over the front of `old`; the length is `old`'s. -/
def overlay : List Byte → List Byte → List Byte
  | [], old => old
  | _, [] => []
  | n :: new, _ :: old => n :: overlay new old

theorem overlay_length (new old : List Byte) : (overlay new old).length = old.length := by
  induction new generalizing old with
  | nil => simp [overlay]
  | cons n new ih => cases old <;> simp [overlay, ih]

/-- Elements `0 .. bytes.length - 1` of a window written, the others kept. -/
def writeFront {n : Nat} (v : Vector Byte n) (bytes : List Byte) : Vector Byte n :=
  ⟨⟨overlay bytes v.toList⟩, by simp [overlay_length]⟩

/-- `DIG[i] <- bytes[i]`, `DLEN <- len(bytes)` (40_command_model R108). -/
def storeDigest (bytes : List Byte) (s : State) : State :=
  { s with dig := writeFront s.dig bytes, dlen := BitVec.ofNat 32 bytes.length }

/-- `OUTC[i] <- str[i]`, `OUTLEN <- len(str)` (44_digest_formatter R195). -/
def writeOut (str : List Byte) (s : State) : State :=
  { s with outc := writeFront s.outc str, outlen := BitVec.ofNat 32 str.length }

/-- `OUTLEN <- 0 ; OUTC[0..63] <- 0x00` (40_command_model R105, R106). -/
def clearOut (s : State) : State :=
  { s with outlen := 0, outc := Vector.replicate 64 0 }

/-- The clearing of every result at an accept of RUN or COMPUTE (40_command_model R105). -/
def clearResults (s : State) : State :=
  { clearOut s with dvalid := false, dkind := .crc16, dlen := 0, dig := Vector.replicate 32 0 }

/-! ## The fatal event and reset -/

/-- `raise Fatal(code)`: the one exception of the block (60_exceptions R218). No vector, no saved state. -/
def raiseFatal (code : FaultCode) (s : State) : State :=
  { s with seq := .halted, fcode := code, done := false }

/-- Reset from the platform, the only way out of HALTED (60_exceptions R219; 70_reset_and_hazards R240,
R244): the block's state only. BUF, the model-only marks, the host's program (a held CMD write among
it), its reads and the schedule stay. The registers that "lose their values" take those of log 1. -/
def platformReset (s : State) : State :=
  { State.reset with
    buf := s.buf, cfault := s.cfault, refused := s.refused, freeCtr := s.freeCtr
    hostq := s.hostq, reads := s.reads, sched := s.sched }

/-! ## Model-only faults -/

/-- Whether a command is in progress. -/
def isRunning (s : State) : Bool := s.seq == .running

/-- CFAULT, and the result of the command in progress is unspecified (60_exceptions R223, R224). -/
def markContractFault (s : State) : State :=
  { s with cfault := true, tainted := s.tainted || isRunning s }

/-- REFUSED, and the result of the command in progress is unspecified (60_exceptions R223, R225; log 8). -/
def markRefused (s : State) : State :=
  { s with refused := true, tainted := s.tainted || isRunning s }

/-- `n` free bytes, the first of them the `k`-th (60_exceptions R223; log 7). -/
def freeBytes (k : Nat) : Nat → List Byte
  | 0 => []
  | n + 1 => Config.freeByte k :: freeBytes (k + 1) n

/-- What a finish step stores for `bytes`: the bytes, or as many free ones when a model-only fault
struck the command (60_exceptions R223). -/
def resultBytes (s : State) (k : Nat) (bytes : List Byte) : List Byte :=
  if s.tainted then freeBytes k bytes.length else bytes

/-! ## Accept and finish -/

/-- What a write of a command to CMD does (40_command_model R102, R103, R104): taken in IDLE, with
DONE cleared first; in RUNNING it holds, without effect; in HALTED it is ignored. -/
def takeCommand (effect : State → State) (s : State) : Host.Outcome State Fault Refusal :=
  match s.seq with
  | .idle => .next (effect { s with done := false })
  | .running => .next s
  | .halted => .next s

/-- The part of `accept_compute` that is the same for every algorithm (40_command_model R105). -/
def acceptCompute (op : Operation) (alg : AlgorithmKind) (s : State) : State :=
  { clearResults s with
    curOp := op, curAlg := alg, lenL := s.len, idx := 0, tainted := false, seq := .running }

/-- `accept_format` and the checks before it (40_command_model R106; 60_exceptions R214, R215):
`str` is the string of the digest held. -/
def acceptFormat (alg : AlgorithmKind) (str : State → List Byte) (s : State) : State :=
  if s.dvalid = false then raiseFatal .digestNotValid s
  else if s.dkind.code ≠ alg.code then raiseFatal .digestKindMismatch s
  else { writeOut (str s) (clearOut s) with done := true }

/-- The last assignments of `finish(d)` (40_command_model R108). A taint ends with its command. -/
def completeCommand (s : State) : State :=
  { s with
    dkind := s.curAlg, dvalid := true, done := true, seq := .idle
    tainted := false, freeCtr := if s.tainted then s.freeCtr + 96 else s.freeCtr }

/-- `finish(d)` (40_command_model R108), with free result bytes under a model-only fault (60_exceptions R223). -/
def finish (d : Digest) (s : State) : State :=
  let stored := storeDigest (resultBytes s s.freeCtr (digestBytes d)) s
  completeCommand <|
    match s.curOp with
    | .run => writeOut (resultBytes s (s.freeCtr + 32) (fmtDigest d)) stored
    | .compute => stored
    | .format => stored

end Sys2Proof.Machine
end

