-- ==== Sys2Proof/Machine/Operands.lean ====
section
/-! DEFINITION. The operand forms. Every operand of a command is implicit (30_encoding R74): the next buffer byte, the whole buffer, the digest held in DIG; and the packing of the byte windows into REG words (20_memory R53). -/

namespace Sys2Proof.Machine

/-- The byte the next CRC byte step reads, `MemRead(BUF, IDX, 1)` (40_command_model R112). -/
def nextBufByte (s : State) : Byte := Memory.read s.buf s.idx.toNat

/-- DIG as a CRC-16 value, `{DIG[1], DIG[0]}` (40_command_model R106). -/
def digU16 (s : State) : BitVec 16 := s.dig[1] ++ s.dig[0]

/-- DIG as a CRC-32 value, `{DIG[3], DIG[2], DIG[1], DIG[0]}` (40_command_model R106). -/
def digU32 (s : State) : BitVec 32 := s.dig[3] ++ s.dig[2] ++ s.dig[1] ++ s.dig[0]

/-- The first `n` bytes of DIG, the operand of the hash FORMAT commands (44_digest_formatter R198 to R200). -/
def digBytes (n : Nat) (s : State) : List Byte := s.dig.toList.take n

/-- `digest_in_DIG(alg)` (40_command_model R106; the lengths of 44_digest_formatter R198 to R200, log 11). -/
def digestInDig (alg : AlgorithmKind) (s : State) : Digest :=
  match alg with
  | .crc16 => .u16 (digU16 s)
  | .crc32 => .u32 (digU32 s)
  | .md5 => .bytes (digBytes 16 s)
  | .sha1 => .bytes (digBytes 20 s)
  | .sha256 => .bytes (digBytes 32 s)

/-- The word at byte offset `o` of a byte window, least significant byte at `o` (10_state R30, R31). -/
def windowWord (bytes : List Byte) (o : Nat) : Word :=
  bytes.getD (o + 3) 0 ++ bytes.getD (o + 2) 0 ++ bytes.getD (o + 1) 0 ++ bytes.getD o 0

end Sys2Proof.Machine
end

