-- ==== Sys2Proof/Machine/Crc16.lean ====
section
/-! DEFINITION. The CRC-16 engine (41_crc16): the table T16, the step function, the engine's byte and finish steps, and the commands RUN.CRC16 and COMPUTE.CRC16. -/

namespace Sys2Proof.Machine

/-- The ROM T16 (10_state R35): entry 0 is 0x0000, the others are the open parameter (41_crc16 R130).
A constant, as 70_reset_and_hazards R243 asks. Log 2. -/
def t16 (i : Byte) : BitVec 16 := if i = 0 then 0 else Config.crc16Entry i

/-- `crc16_step` for a table (41_crc16 R131). -/
def crc16StepWith (table : Byte → BitVec 16) (a : BitVec 16) (b : Byte) : BitVec 16 :=
  table (((a >>> 8) ^^^ b.setWidth 16).setWidth 8) ^^^ (a <<< 8)

/-- `crc16` of a byte sequence for a table (41_crc16 R132). -/
def crc16With (table : Byte → BitVec 16) (s : List Byte) : BitVec 16 :=
  s.foldl (crc16StepWith table) 0x0000

/-- `crc16_step` with the device's table (41_crc16 R131). -/
def crc16Step (a : BitVec 16) (b : Byte) : BitVec 16 := crc16StepWith t16 a b

/-- `crc16` with the device's table (41_crc16 R132). -/
def crc16 (s : List Byte) : BitVec 16 := crc16With t16 s

/-- The CRC-16 byte step (41_crc16 R135). -/
def crc16ByteStep (s : State) : State :=
  { s with acc16 := crc16Step s.acc16 (nextBufByte s), idx := s.idx + 1 }

/-- The CRC-16 finish step (41_crc16 R136). -/
def crc16Finish (s : State) : State := finish (.u16 s.acc16) s

/-- `accept_compute` of a CRC16 command (40_command_model R105; 41_crc16 R134). -/
def acceptCrc16 (op : Operation) (s : State) : State :=
  { acceptCompute op .crc16 s with acc16 := 0x0000 }

/-- RUN.CRC16, word 0x00000000 (41_crc16 R138): the accept step. The byte steps and the finish step
are the engine's own, `Engine.lean`. Log 10. -/
def execRunCrc16 (s : State) : Host.Outcome State Fault Refusal := takeCommand (acceptCrc16 .run) s

/-- COMPUTE.CRC16, word 0x00000001 (41_crc16 R137): the accept step. Log 10. -/
def execComputeCrc16 (s : State) : Host.Outcome State Fault Refusal :=
  takeCommand (acceptCrc16 .compute) s

end Sys2Proof.Machine
end

