-- ==== Sys2Proof/Machine/Hash.lean ====
section
/-! DEFINITION. Hash delegation (43_hash_delegation): the three HASH functions as oracles with their named properties, the HashUnit step, the finish step, and the RUN and COMPUTE commands of MD5, SHA1 and SHA256. -/

namespace Sys2Proof.Machine

/-- The digest of the empty sequence that H-EMPTY gives HASH_MD5 (43_hash_delegation R170). -/
def md5Empty : List Byte :=
  [0xD4, 0x1D, 0x8C, 0xD9, 0x8F, 0x00, 0xB2, 0x04, 0xE9, 0x80, 0x09, 0x98, 0xEC, 0xF8, 0x42, 0x7E]

/-- The digest of the empty sequence that H-EMPTY gives HASH_SHA1 (43_hash_delegation R170). -/
def sha1Empty : List Byte :=
  [0xDA, 0x39, 0xA3, 0xEE, 0x5E, 0x6B, 0x4B, 0x0D, 0x32, 0x55,
   0xBF, 0xEF, 0x95, 0x60, 0x18, 0x90, 0xAF, 0xD8, 0x07, 0x09]

/-- The digest of the empty sequence that H-EMPTY gives HASH_SHA256 (43_hash_delegation R170). -/
def sha256Empty : List Byte :=
  [0xE3, 0xB0, 0xC4, 0x42, 0x98, 0xFC, 0x1C, 0x14, 0x9A, 0xFB, 0xF4, 0xC8, 0x99, 0x6F, 0xB9, 0x24,
   0x27, 0xAE, 0x41, 0xE4, 0x64, 0x9B, 0x93, 0x4C, 0xA4, 0x95, 0x99, 0x1B, 0x78, 0x52, 0xB8, 0x55]

/-- `HASH_MD5`: an oracle with H-LEN, H-DET and H-EMPTY (43_hash_delegation R170). Log 3. -/
def hashMd5 : List Byte → List Byte
  | [] => md5Empty
  | b :: s => (Config.md5 (b :: s)).toList

/-- `HASH_SHA1`: an oracle with H-LEN, H-DET and H-EMPTY (43_hash_delegation R170). Log 3. -/
def hashSha1 : List Byte → List Byte
  | [] => sha1Empty
  | b :: s => (Config.sha1 (b :: s)).toList

/-- `HASH_SHA256`: an oracle with H-LEN, H-DET and H-EMPTY (43_hash_delegation R170). Log 3. -/
def hashSha256 : List Byte → List Byte
  | [] => sha256Empty
  | b :: s => (Config.sha256 (b :: s)).toList

/-- `HASH(alg, s)` (00_scope R12); the HashUnit computes nothing for the CRC kinds. -/
def hashOf : AlgorithmKind → List Byte → Option (List Byte)
  | .crc16, _ => none
  | .crc32, _ => none
  | .md5, s => some (hashMd5 s)
  | .sha1, s => some (hashSha1 s)
  | .sha256, s => some (hashSha256 s)

/-- The HashUnit step, enabled when a request is pending (43_hash_delegation R171): the whole buffer is
read in this one step. Otherwise the unit holds (log 16, 17). -/
def hashUnitStep (s : State) : State :=
  match s.hreq, hashOf s.curAlg (bufContents s) with
  | .pending, some answer => { s with hans := answer, hreq := .answered }
  | _, _ => s

/-- The hash finish step (43_hash_delegation R173). -/
def hashFinish (s : State) : State := { finish (.bytes s.hans) s with hreq := .none }

/-- `accept_compute` of a hash command: one request pending, no accumulator written (43_hash_delegation R172). -/
def acceptHash (op : Operation) (alg : AlgorithmKind) (s : State) : State :=
  { acceptCompute op alg s with hreq := .pending }

/-- RUN.MD5, word 0x00000008 (43_hash_delegation R175): the accept step. Log 10. -/
def execRunMd5 (s : State) : Host.Outcome State Fault Refusal := takeCommand (acceptHash .run .md5) s

/-- COMPUTE.MD5, word 0x00000009 (43_hash_delegation R174): the accept step. Log 10. -/
def execComputeMd5 (s : State) : Host.Outcome State Fault Refusal :=
  takeCommand (acceptHash .compute .md5) s

/-- RUN.SHA1, word 0x0000000C (43_hash_delegation R177): the accept step. Log 10. -/
def execRunSha1 (s : State) : Host.Outcome State Fault Refusal := takeCommand (acceptHash .run .sha1) s

/-- COMPUTE.SHA1, word 0x0000000D (43_hash_delegation R176): the accept step. Log 10. -/
def execComputeSha1 (s : State) : Host.Outcome State Fault Refusal :=
  takeCommand (acceptHash .compute .sha1) s

/-- RUN.SHA256, word 0x00000010 (43_hash_delegation R179): the accept step. Log 10. -/
def execRunSha256 (s : State) : Host.Outcome State Fault Refusal :=
  takeCommand (acceptHash .run .sha256) s

/-- COMPUTE.SHA256, word 0x00000011 (43_hash_delegation R178): the accept step. Log 10. -/
def execComputeSha256 (s : State) : Host.Outcome State Fault Refusal :=
  takeCommand (acceptHash .compute .sha256) s

end Sys2Proof.Machine
end

