-- ==== Sys2Proof/Machine/Engine.lean ====
section
/-! DEFINITION. The engine's own steps while RUNNING (40_command_model R107), and `compute` (R100). -/

namespace Sys2Proof.Machine

/-- `compute(s, alg)` (40_command_model R100). -/
def compute (s : List Byte) : AlgorithmKind → Digest
  | .crc16 => .u16 (crc16 s)
  | .crc32 => .u32 (crc32 s)
  | .md5 => .bytes (hashMd5 s)
  | .sha1 => .bytes (hashSha1 s)
  | .sha256 => .bytes (hashSha256 s)

/-- The step of a hash command: finish when the HashUnit has answered, else hold (40_command_model R107). -/
def hashEngineStep (s : State) : State :=
  if s.hreq = .answered then hashFinish s else s

/-- The engine's one enabled step (40_command_model R107). In IDLE and HALTED it has none, and it has
none where IDX has passed LEN_L, which no run reaches (10_state R23; log 17). -/
def engineStep (s : State) : State :=
  match s.seq with
  | .idle => s
  | .halted => s
  | .running =>
    match s.curAlg with
    | .crc16 =>
      if s.idx < s.lenL then crc16ByteStep s else if s.idx = s.lenL then crc16Finish s else s
    | .crc32 =>
      if s.idx < s.lenL then crc32ByteStep s else if s.idx = s.lenL then crc32Finish s else s
    | .md5 => hashEngineStep s
    | .sha1 => hashEngineStep s
    | .sha256 => hashEngineStep s

end Sys2Proof.Machine
end

