-- ==== Sys2Proof/Machine/Format.lean ====
section
/-! DEFINITION. The five FORMAT commands (44_digest_formatter R196 to R200): one atomic step at accept. -/

namespace Sys2Proof.Machine

/-- FORMAT.CRC16, word 0x00000002 (44_digest_formatter R196). -/
def execFormatCrc16 (s : State) : Host.Outcome State Fault Refusal :=
  takeCommand (acceptFormat .crc16 fun t => fmtU16 (digU16 t)) s

/-- FORMAT.CRC32, word 0x00000006 (44_digest_formatter R197). -/
def execFormatCrc32 (s : State) : Host.Outcome State Fault Refusal :=
  takeCommand (acceptFormat .crc32 fun t => fmtU32 (digU32 t)) s

/-- FORMAT.MD5, word 0x0000000A (44_digest_formatter R198). -/
def execFormatMd5 (s : State) : Host.Outcome State Fault Refusal :=
  takeCommand (acceptFormat .md5 fun t => fmtBytes (digBytes 16 t)) s

/-- FORMAT.SHA1, word 0x0000000E (44_digest_formatter R199). -/
def execFormatSha1 (s : State) : Host.Outcome State Fault Refusal :=
  takeCommand (acceptFormat .sha1 fun t => fmtBytes (digBytes 20 t)) s

/-- FORMAT.SHA256, word 0x00000012 (44_digest_formatter R200). -/
def execFormatSha256 (s : State) : Host.Outcome State Fault Refusal :=
  takeCommand (acceptFormat .sha256 fun t => fmtBytes (digBytes 32 t)) s

end Sys2Proof.Machine
end

