-- ==== Sys2Proof/Machine/Dispatch.lean ====
section
/-! DEFINITION. The meaning of each command: what a write of its word to CMD does. -/

namespace Sys2Proof.Machine

/-- One arm per command; the engine's later steps are in Engine.lean. -/
def exec (i : Instr) (s : State) : Host.Outcome State Fault Refusal :=
  match i with
  | .runCrc16 => Sys2Proof.Machine.execRunCrc16 s
  | .computeCrc16 => Sys2Proof.Machine.execComputeCrc16 s
  | .formatCrc16 => Sys2Proof.Machine.execFormatCrc16 s
  | .runCrc32 => Sys2Proof.Machine.execRunCrc32 s
  | .computeCrc32 => Sys2Proof.Machine.execComputeCrc32 s
  | .formatCrc32 => Sys2Proof.Machine.execFormatCrc32 s
  | .runMd5 => Sys2Proof.Machine.execRunMd5 s
  | .computeMd5 => Sys2Proof.Machine.execComputeMd5 s
  | .formatMd5 => Sys2Proof.Machine.execFormatMd5 s
  | .runSha1 => Sys2Proof.Machine.execRunSha1 s
  | .computeSha1 => Sys2Proof.Machine.execComputeSha1 s
  | .formatSha1 => Sys2Proof.Machine.execFormatSha1 s
  | .runSha256 => Sys2Proof.Machine.execRunSha256 s
  | .computeSha256 => Sys2Proof.Machine.execComputeSha256 s
  | .formatSha256 => Sys2Proof.Machine.execFormatSha256 s

end Sys2Proof.Machine
end

