-- ==== Sys2Proof/Machine/Flags.lean ====
section
/-! DEFINITION. STATUS as a word (10_state R26), the fault codes (60_exceptions R210) and the check of a command word (R217). -/

namespace Sys2Proof.Machine

/-- The four-bit value of FCODE (60_exceptions R210). -/
def FaultCode.code : FaultCode → BitVec 4
  | .none => 0
  | .invalidAlgorithm => 1
  | .invalidCommand => 2
  | .digestNotValid => 3
  | .digestKindMismatch => 4

/-- The fault a word that is no command raises (30_encoding R76; 60_exceptions R211 to R213). -/
def illegalCode : Illegal → FaultCode
  | .reservedBits => .invalidCommand
  | .reservedOperation => .invalidCommand
  | .noSuchAlgorithm => .invalidAlgorithm

/-- STATUS.BUSY: 1 when STATE = RUNNING (10_state R26). -/
def busyBit (s : State) : Bool := s.seq == .running

/-- STATUS.FATAL: 1 when STATE = HALTED (10_state R26). -/
def fatalBit (s : State) : Bool := s.seq == .halted

/-- STATUS: BUSY 0, DONE 1, DVALID 2, FATAL 3, FCODE 7:4, DKIND 10:8, the rest 0 (10_state R26). -/
def statusWord (s : State) : Word :=
  0#21 ++ s.dkind.code ++ s.fcode.code ++ BitVec.ofBool (fatalBit s) ++ BitVec.ofBool s.dvalid
    ++ BitVec.ofBool s.done ++ BitVec.ofBool (busyBit s)

/-- `check(w)`, transcribed from 60_exceptions R217. -/
def check (w : Word) (s : State) : FaultCode :=
  if w.extractLsb' 5 27 ≠ 0 then .invalidCommand
  else if w.extractLsb' 0 2 = 0b11 then .invalidCommand
  else if w.extractLsb' 2 3 > 0b100 then .invalidAlgorithm
  else if w.extractLsb' 0 2 = 0b10 ∧ s.dvalid = false then .digestNotValid
  else if w.extractLsb' 0 2 = 0b10 ∧ s.dkind.code ≠ w.extractLsb' 2 3 then .digestKindMismatch
  else .none

end Sys2Proof.Machine
end

