-- ==== Sys2Proof/Machine/HostPort.lean ====
section
/-! DEFINITION. The host's side: the REG space (10_state section 3; 20_memory R51), a write to CMD (40_command_model R102 to R104), the host statements (30_encoding R78, R79) and one step of the host. -/

namespace Sys2Proof.Machine

/-! ## Offsets (10_state section 3) -/

abbrev offCmd : Nat := 0x00
abbrev offStatus : Nat := 0x04
abbrev offLen : Nat := 0x08
abbrev offDlen : Nat := 0x0C
abbrev offOutlen : Nat := 0x10
abbrev offDigest : Nat := 0x20
abbrev offOut : Nat := 0x40

/-- An admitted REG access: one aligned 32-bit word below offset 0x100 (20_memory R51; 60_exceptions R225). -/
def regAdmitted (offset width : Nat) : Bool :=
  width == 4 && offset % 4 == 0 && decide (offset < 0x100)

/-- The value of an admitted REG read (10_state R25 to R32). No read has a side effect (20_memory R56). -/
def regRead (offset : Nat) (s : State) : Word :=
  if offset = offCmd then 0
  else if offset = offStatus then statusWord s
  else if offset = offLen then s.len
  else if offset = offDlen then (s.dlen.extractLsb' 0 6).setWidth 32
  else if offset = offOutlen then (s.outlen.extractLsb' 0 7).setWidth 32
  else if offDigest ≤ offset ∧ offset < 0x40 then windowWord s.dig.toList (offset - offDigest)
  else if offOut ≤ offset ∧ offset < 0x80 then windowWord s.outc.toList (offset - offOut)
  else 0

/-- An admitted REG write other than to CMD: LEN takes it (10_state R27), every other offset ignores it (R26, R28 to R32). -/
def regWrite (offset : Nat) (v : Word) (s : State) : State :=
  if offset = offLen then { s with len := v } else s

/-- The word `w` taken from CMD: a command runs, a word that is none is a fatal event (30_encoding R77).
Whether it is taken, held or ignored is `takeCommand`'s (40_command_model R102 to R104). -/
def takeWord (w : Word) (s : State) : Host.Outcome State Fault Refusal :=
  match decode w with
  | .ok i => exec i s
  | .error e => takeCommand (raiseFatal (illegalCode e)) s

/-! ## Host statements (30_encoding R78, R79) -/

/-- `BUFW a, [b0, b1, ...]`. -/
def bufw (a : Nat) : List Byte → List HostOp
  | [] => []
  | b :: rest => .bufWrite a b :: bufw (a + 1) rest

/-- `BUFS a, "text"`, the text as its characters. -/
def bufs (a : Nat) (text : List Char) : List HostOp :=
  bufw a (text.map fun c => BitVec.ofNat 8 c.toNat)

/-- `WR LEN, n`. -/
def wrLen (n : Word) : List HostOp := [.regWrite offLen 4 n]

/-- `CMDW w`. -/
def cmdw (w : Word) : List HostOp := [.regWrite offCmd 4 w]

/-- `CMD <mnemonic>`. -/
def cmd (i : Instr) : List HostOp := cmdw (encode i)

/-- `RD <name>`, the name as its offset. -/
def rd (offset : Nat) : List HostOp := [.regRead offset 4]

/-- `n` word reads from `offset` on, the expansion of the window pseudo-statements (30_encoding R79). -/
def windowReads (offset : Nat) : Nat → List HostOp
  | 0 => []
  | n + 1 => .regRead offset 4 :: windowReads (offset + 4) n

/-! ## One step of the host -/

/-- A read's result joins the observation. -/
def observeReg (offset : Nat) (s : State) : State :=
  { s with reads := .reg offset (regRead offset s) :: s.reads }

/-- The host writes one byte of BUF; while RUNNING that is the contract fault (60_exceptions R224). An
address outside the space does not exist (20_memory R50; log 9). -/
def hostBufWrite (a : Nat) (v : Byte) (s : State) : Host.Outcome State Fault Refusal :=
  if a < Config.bufSize then
    let t := { s with buf := Memory.write s.buf a v }
    .next (if isRunning s then markContractFault t else t)
  else .fault .noSuchBufAddress

/-- The host reads one byte of BUF (20_memory R50). -/
def hostBufRead (a : Nat) (s : State) : Host.Outcome State Fault Refusal :=
  if a < Config.bufSize then .next { s with reads := .buf a (Memory.read s.buf a) :: s.reads }
  else .fault .noSuchBufAddress

/-- The host writes a REG word. `s` still has the access at the head of its queue and `t` is `s`
without it: a CMD write that holds (40_command_model R103) leaves `s`. -/
def hostRegWrite (offset width : Nat) (v : Word) (s t : State) : Host.Outcome State Fault Refusal :=
  if regAdmitted offset width = false then .next (markRefused t)
  else if offset = offCmd then
    if isRunning s then .next s else takeWord v t
  else .next (regWrite offset v t)

/-- The host reads a REG word (20_memory R51), or is refused (60_exceptions R225). -/
def hostRegRead (offset width : Nat) (s : State) : State :=
  if regAdmitted offset width then observeReg offset s else markRefused s

/-- Reads to follow a length read: the words that cover it (30_encoding R79). -/
def pushReads (window : Nat) (length : Word) (s : State) : State :=
  { s with hostq := windowReads window ((length.toNat + 3) / 4) ++ s.hostq }

/-- One access of the host, in program order (20_memory R60); with nothing left to do it holds. -/
def hostStep (s : State) : Host.Outcome State Fault Refusal :=
  match s.hostq with
  | [] => .next s
  | op :: rest =>
    let t := { s with hostq := rest }
    match op with
    | .bufWrite a v => hostBufWrite a v t
    | .bufRead a => hostBufRead a t
    | .regWrite offset width v => hostRegWrite offset width v s t
    | .regRead offset width => .next (hostRegRead offset width t)
    | .wait => .next (observeReg offStatus (if busyBit s then s else t))
    | .readString => .next (pushReads offOut (regRead offOutlen s) (observeReg offOutlen t))
    | .readDigest => .next (pushReads offDigest (regRead offDlen s) (observeReg offDlen t))

end Sys2Proof.Machine
end

