-- ==== Sys2Proof/Machine/Agents.lean ====
section
/-! DEFINITION. Which agent moves, and its step (00_scope R3; 20_memory R60; 70_reset_and_hazards R251). -/

namespace Sys2Proof.Machine

/-- Whether the engine has a step (40_command_model R107). -/
def engineEnabled (s : State) : Bool :=
  s.seq == .running &&
    match s.curAlg with
    | .crc16 | .crc32 => decide (s.idx ≤ s.lenL)
    | .md5 | .sha1 | .sha256 => s.hreq == .answered

/-- Whether the HashUnit has a step (43_hash_delegation R171). -/
def hashUnitEnabled (s : State) : Bool := s.hreq == .pending

/-- Who moves when the schedule names nobody: the engine, then the HashUnit, then the host. The order
is fair: the engine and the HashUnit run out of steps, so every agent's turn comes. DESIGN CHOICE, log 5. -/
def defaultAgent (s : State) : Agent :=
  if engineEnabled s then .engine else if hashUnitEnabled s then .hashUnit else .host

/-- One atomic step of an agent; an agent without an enabled step holds (00_scope R12; log 16). -/
def agentStep (a : Agent) (s : State) : Host.Outcome State Fault Refusal :=
  match a with
  | .engine => .next (engineStep s)
  | .hashUnit => .next (hashUnitStep s)
  | .host => hostStep s
  | .platform => .next (platformReset s)

/-- The agent whose turn it is. -/
def nextAgent (s : State) : Agent :=
  match s.sched with
  | [] => defaultAgent s
  | a :: _ => a

/-- The state as that agent finds it, its turn taken off the schedule. -/
def takeTurn (s : State) : State := { s with sched := s.sched.tail }

/-- A host program's CMD write placed before all else the host has to do, and the host's turn placed
first, so that the very next step presents the word to the engine. Log 6. -/
def presentWord (w : Word) (s : State) : State :=
  { s with hostq := cmdw w ++ s.hostq, sched := .host :: s.sched }

end Sys2Proof.Machine
end

