-- ==== Sys2Proof/Machine/Step.lean ====
section
/-! DEFINITION. One step of the whole system: the agent whose turn it is takes its step. -/

namespace Sys2Proof.Machine

/-- One step (20_memory R60: "one order of all steps of all agents"). -/
def step (s : State) : Host.Outcome State Fault Refusal := agentStep (nextAgent s) (takeTurn s)

/-- The instruction of the word `w` of `nbits` bits placed where the next step takes a command: at the
head of the host's queue, with the host's turn first. The block fetches nothing (20_memory R63); this
stands for a host program whose next statement is `CMDW w`. Log 6. -/
def State.withFetchWord (s : State) (nbits w : Nat) : State :=
  presentWord (BitVec.ofNat 32 (w % 2 ^ nbits)) s

end Sys2Proof.Machine
end

