-- ==== Sys2Proof/WellFormed.lean ====
section
/-! DEFINITION. Well-formedness: of a command by its word's fields (30_encoding R75, R76), and of a host access by what the spaces admit (20_memory R50, R51). -/

namespace Sys2Proof

/-- A command is well-formed when its word passes the field checks of 30_encoding R75. -/
def Instr.wellFormed (i : Instr) : Bool := legalWord (encode i)

/-- A host statement is well-formed when its accesses are admitted: BUF addresses exist (20_memory R50)
and REG accesses are aligned words below 0x100 (20_memory R51). -/
def Machine.HostOp.wellFormed : Machine.HostOp → Bool
  | .bufWrite a _ => decide (a < Config.bufSize)
  | .bufRead a => decide (a < Config.bufSize)
  | .regWrite offset width _ => Machine.regAdmitted offset width
  | .regRead offset width => Machine.regAdmitted offset width
  | .wait => true
  | .readString => true
  | .readDigest => true

end Sys2Proof
end

