-- ==== Sys2Proof/Safety.lean ====
section
/-! DEFINITION. What claims speak of: launch, the end and the observation of a run (70_reset_and_hazards R254, R255), the model-only marks, the invariant of the machine and the progress of a command. -/

namespace Sys2Proof.Machine

/-! ## Runs -/

/-- `n` steps, stopping at the first fault or refusal. -/
def runSteps : Nat → State → Host.Outcome State Fault Refusal
  | 0, s => .next s
  | n + 1, s =>
    match step s with
    | .next t => runSteps n t
    | .fault r => .fault r
    | .refused r => .refused r

/-- CFAULT and REFUSED are clear, the premise of every claim about a result (10_state R40). -/
def marksClear (s : State) : Bool := !s.cfault && !s.refused

/-- `reset_state` with a host program, `buf_init` and a schedule (70_reset_and_hazards R255). -/
def launch (program : List HostOp) (buf : Memory) (sched : List Agent) : State :=
  { State.reset with hostq := program, buf := buf, sched := sched }

/-- The condition of the end of a run: the program is over, nothing is held (a held write and a `WAIT`
that still reads BUSY = 1 stay in the queue) and no command is in progress (70_reset_and_hazards R254). -/
def runEnded (s : State) : Bool := s.hostq.isEmpty && !isRunning s

/-- The end state of the run from `s`: the first state that meets `runEnded`, `s` itself among them
(70_reset_and_hazards R254). `none` when `n` steps do not reach it, or the run stops before. -/
def runToEnd : Nat → State → Option State
  | 0, s => if runEnded s then some s else none
  | n + 1, s =>
    if runEnded s then some s
    else
      match step s with
      | .next t => runToEnd n t
      | .fault _ => none
      | .refused _ => none

/-- An end state that is a successful end: FATAL = 0 and both marks clear (70_reset_and_hazards R254). -/
def endSucceeded (s : State) : Bool := !fatalBit s && marksClear s

/-- The run from `s` ends within `n` steps, and its end state is a successful end (70_reset_and_hazards R254). -/
def runSucceeded (n : Nat) (s : State) : Bool := (runToEnd n s).any endSucceeded

/-- The observation of a run (70_reset_and_hazards R254). -/
structure Observation where
  status : Word
  dlen : Word
  dig : Vector Byte 32
  outlen : Word
  outc : Vector Byte 64
  reads : List HostRead
  deriving DecidableEq, Repr

/-- What a run that ends in `s` lets be seen. -/
def observe (s : State) : Observation where
  status := statusWord s
  dlen := s.dlen
  dig := s.dig
  outlen := s.outlen
  outc := s.outc
  reads := s.reads

/-- The observation of the run from `s`, that of its end state (70_reset_and_hazards R254). -/
def observeRun (n : Nat) (s : State) : Option Observation := (runToEnd n s).map observe

/-! ## Terms of the claims -/

/-- A window that holds `bytes` from element 0 on and 0x00 after them. -/
def windowOf (n : Nat) (bytes : List Byte) : Vector Byte n :=
  Vector.ofFn fun i => bytes.getD i.val 0

/-- Whether the kind is computed by the HashUnit. -/
def isHash : AlgorithmKind → Bool
  | .crc16 => false
  | .crc32 => false
  | .md5 => true
  | .sha1 => true
  | .sha256 => true

/-- Steps from accept to the end of a command when only the engine and the HashUnit move: LEN_L + 1
for a CRC, the answer and the finish for a hash (40_command_model R110). -/
def commandSteps (alg : AlgorithmKind) (len : Word) : Nat :=
  if isHash alg then 2 else len.toNat + 1

/-- One of the sixteen character codes of 44_digest_formatter R202. -/
def isHexCode (b : Byte) : Bool :=
  (decide (0x30 ≤ b) && decide (b ≤ 0x39)) || (decide (0x41 ≤ b) && decide (b ≤ 0x46))

/-- The state with every register that 70_reset_and_hazards R242 gives no value replaced by a fixed one:
outside RUNNING all seven, during a command the accumulator not in use and an answer that has not come. -/
def forgetUnread (s : State) : State :=
  { s with
    acc16 := if s.seq = .running ∧ s.curAlg = .crc16 then s.acc16 else 0
    acc32 := if s.seq = .running ∧ s.curAlg = .crc32 then s.acc32 else 0
    idx := if s.seq = .running then s.idx else 0
    lenL := if s.seq = .running then s.lenL else 0
    curOp := if s.seq = .running then s.curOp else .run
    curAlg := if s.seq = .running then s.curAlg else .crc16
    hans := if s.seq = .running ∧ s.hreq = .answered then s.hans else [] }

/-! ## The invariant -/

/-- What holds at reset and after every step of every agent. -/
structure Inv (s : State) : Prop where
  /-- BUF is in its canonical form. -/
  memory : Memory.wf s.buf = true
  /-- FCODE is 0 exactly when FATAL = 0 (10_state R26). -/
  fatal : s.seq = .halted ↔ s.fcode ≠ .none
  /-- HREQ = NONE in IDLE and HALTED, and during a CRC command (10_state R39). -/
  request : s.hreq ≠ .none → s.seq = .running ∧ isHash s.curAlg = true
  /-- A hash command has its one request (43_hash_delegation R172). -/
  hashWaits : s.seq = .running → isHash s.curAlg = true → s.hreq ≠ .none
  /-- An answer has its kind's length (43_hash_delegation R170 H-LEN). -/
  answer : s.hreq = .answered → s.hans.length = digestLength s.curAlg
  /-- While RUNNING nothing is done or valid (40_command_model R105), and only RUN and COMPUTE run. -/
  running : s.seq = .running → s.done = false ∧ s.dvalid = false ∧ s.curOp ≠ .format
  /-- IDX never passes LEN_L (10_state R23). -/
  progress : s.seq = .running → isHash s.curAlg = false → s.idx ≤ s.lenL
  /-- DKIND, DLEN and OUTLEN are 0 without a digest (10_state R26, R28, R29). -/
  noDigest : s.dvalid = false → s.dkind = .crc16 ∧ s.dlen = 0 ∧ s.outlen = 0
  /-- DLEN and OUTLEN belong to the kind of the digest held (10_state R28, R29). -/
  digest : s.dvalid = true →
    s.dlen.toNat = digestLength s.dkind ∧ (s.outlen = 0 ∨ s.outlen.toNat = stringLength s.dkind)
  /-- DONE only with a digest held, in IDLE (10_state R26). -/
  done : s.done = true → s.dvalid = true ∧ s.seq = .idle
  /-- DIG is 0x00 from DLEN on (10_state R33). -/
  digTail : ∀ i (h : i < 32), s.dlen.toNat ≤ i → s.dig[i] = 0
  /-- OUTC is 0x00 from OUTLEN on (10_state R34). -/
  outTail : ∀ i (h : i < 64), s.outlen.toNat ≤ i → s.outc[i] = 0
  /-- A taint is of a command in progress, and a mark records it (60_exceptions R223). -/
  taint : s.tainted = true → s.seq = .running ∧ marksClear s = false
  /-- Every character of a string is a hexadecimal digit (44_digest_formatter R202). -/
  string : marksClear s = true → ∀ i (h : i < 64), i < s.outlen.toNat → isHexCode s.outc[i] = true

/-- How far the command in progress has come, when no model-only fault struck it: the accumulators hold
the bytes before IDX (41_crc16 R135; 42_crc32 R156), an answer is the hash of the whole buffer (43 R171). -/
structure Progress (s : State) : Prop where
  crc16 : s.seq = .running → s.tainted = false → s.curAlg = .crc16 →
    s.acc16 = Machine.crc16 (Memory.range s.buf 0 s.idx.toNat)
  crc32 : s.seq = .running → s.tainted = false → s.curAlg = .crc32 →
    s.acc32 ^^^ 0xFFFFFFFF = Machine.crc32 (Memory.range s.buf 0 s.idx.toNat)
  hash : s.seq = .running → s.tainted = false → s.hreq = .answered →
    hashOf s.curAlg (bufContents s) = some s.hans

end Sys2Proof.Machine
end

