-- ==== Sys2Proof/Certificates/Slice0/Obligations.lean ====
section
/-! DEFINITION. The statements for the provers, each from the numbered rules it names. -/

open Sys2Proof Sys2Proof.Machine

/-! ## Encoding -/

/-- 30_encoding R75: each of the fifteen words is its command. -/
def Obligations.LegalWordsDecodeAsTabled : Prop :=
  decode 0x00000000 = .ok .runCrc16 ∧ decode 0x00000001 = .ok .computeCrc16 ∧
  decode 0x00000002 = .ok .formatCrc16 ∧ decode 0x00000004 = .ok .runCrc32 ∧
  decode 0x00000005 = .ok .computeCrc32 ∧ decode 0x00000006 = .ok .formatCrc32 ∧
  decode 0x00000008 = .ok .runMd5 ∧ decode 0x00000009 = .ok .computeMd5 ∧
  decode 0x0000000A = .ok .formatMd5 ∧ decode 0x0000000C = .ok .runSha1 ∧
  decode 0x0000000D = .ok .computeSha1 ∧ decode 0x0000000E = .ok .formatSha1 ∧
  decode 0x00000010 = .ok .runSha256 ∧ decode 0x00000011 = .ok .computeSha256 ∧
  decode 0x00000012 = .ok .formatSha256

/-- 30_encoding R75: every command is well-formed, a word decodes to it exactly when it is its
encoding, and that is so for the fifteen rows of the table and for no other of the 2^32 words. -/
def Obligations.DecodeAcceptsExactlyTheEncodings : Prop :=
  ∀ (w : Word) (i : Instr), i.wellFormed = true ∧ (decode w = .ok i ↔ w = encode i) ∧
    encode i = (i.algorithm.code.setWidth 32 <<< 2) ||| i.operation.code.setWidth 32 ∧
    (decode w = .ok i ↔ (w, i) ∈
      [(0x00000000, .runCrc16), (0x00000001, .computeCrc16), (0x00000002, .formatCrc16),
       (0x00000004, .runCrc32), (0x00000005, .computeCrc32), (0x00000006, .formatCrc32),
       (0x00000008, .runMd5), (0x00000009, .computeMd5), (0x0000000A, .formatMd5),
       (0x0000000C, .runSha1), (0x0000000D, .computeSha1), (0x0000000E, .formatSha1),
       (0x00000010, .runSha256), (0x00000011, .computeSha256), (0x00000012, .formatSha256)])

/-- 30_encoding R76; 60_exceptions R211, R212, R213, with the entry of R218: a word that is no command,
taken in IDLE, raises its fatal event, Fatal(2) or Fatal(1), and changes nothing else. -/
def Obligations.IllegalWordsRaiseTheirFatalEvent : Prop :=
  FaultCode.invalidCommand.code = 2 ∧ FaultCode.invalidAlgorithm.code = 1 ∧
  ∀ (w : Word) (s : State), s.seq = .idle →
    (w.extractLsb' 5 27 ≠ 0 →
      takeWord w s = .next { s with seq := .halted, fcode := .invalidCommand, done := false }) ∧
    (w.extractLsb' 5 27 = 0 → w.extractLsb' 0 2 = 0b11 →
      takeWord w s = .next { s with seq := .halted, fcode := .invalidCommand, done := false }) ∧
    (w.extractLsb' 5 27 = 0 → w.extractLsb' 0 2 ≠ 0b11 →
      (w.extractLsb' 2 3 = 0b101 ∨ w.extractLsb' 2 3 = 0b110 ∨ w.extractLsb' 2 3 = 0b111) →
      takeWord w s = .next { s with seq := .halted, fcode := .invalidAlgorithm, done := false })

/-- 40_command_model R102 with `check` of 60_exceptions R217: a word taken in IDLE halts with the code
that `check` gives, if there is one, and otherwise starts a RUN or COMPUTE or completes a FORMAT. -/
def Obligations.AcceptStepFollowsCheck : Prop :=
  ∀ (w : Word) (s : State), s.seq = .idle →
    (check w s ≠ .none →
      takeWord w s = .next { s with seq := .halted, fcode := check w s, done := false }) ∧
    (check w s = .none → ∃ t i, decode w = .ok i ∧ takeWord w s = .next t ∧ exec i s = .next t ∧
      t.fcode = s.fcode ∧
      (w.extractLsb' 0 2 = 0b10 → t.seq = .idle ∧ t.done = true) ∧
      (w.extractLsb' 0 2 ≠ 0b10 → t.seq = .running ∧ t.done = false))

/-! ## The step and the commands -/

/-- 40_command_model R102; 20_memory R60: in the host's turn, with a CMD write at the head of its
program and no command in progress, the step is the meaning of the decoded command on the state with
that access and that turn taken off; a word that is no command is a fatal event in IDLE. -/
def Obligations.StepRunsTheDecodedCommand : Prop :=
  ∀ (s : State) (w : Word) (rest : List HostOp),
    nextAgent s = .host → s.hostq = .regWrite 0x00 4 w :: rest → s.seq ≠ .running →
    (∀ i, decode w = .ok i → step s = exec i { s with hostq := rest, sched := s.sched.tail }) ∧
    (∀ e, decode w = .error e → s.seq = .idle →
      step s = .next (raiseFatal (illegalCode e) { s with hostq := rest, sched := s.sched.tail, done := false }))

/-- The host's interface: the step after `withFetchWord` runs exactly the command of that word. -/
def Obligations.FetchWordPresentsTheCommand : Prop :=
  ∀ (s : State) (i : Instr), s.seq ≠ .running →
    decodeTableWord 32 (encode i).toNat = some i ∧
    step (s.withFetchWord 32 (encode i).toNat) = exec i s

/-- 40_command_model R103: while RUNNING a CMD write stays at the head of the host's program and nothing
but the turn is used up; a command's own meaning has no effect there either. -/
def Obligations.CommandWriteHoldsWhileRunning : Prop :=
  ∀ (s : State) (w : Word) (rest : List HostOp), s.seq = .running →
    (nextAgent s = .host → s.hostq = .regWrite 0x00 4 w :: rest →
      step s = .next { s with sched := s.sched.tail }) ∧
    (∀ i, exec i s = .next s)

/-- 40_command_model R104: in HALTED a CMD write completes and no field of any register changes. -/
def Obligations.CommandWriteIgnoredWhenHalted : Prop :=
  ∀ (s : State) (w : Word) (rest : List HostOp), s.seq = .halted →
    nextAgent s = .host → s.hostq = .regWrite 0x00 4 w :: rest →
      step s = .next { s with hostq := rest, sched := s.sched.tail }

/-- 40_command_model R105 with 41_crc16 R134, 42_crc32 R155 and 43_hash_delegation R172: what the accept of each RUN and COMPUTE
command does, with its frame; R102 clears DONE. The taint is the model's own field (log 7). -/
def Obligations.AcceptOfRunAndCompute : Prop :=
  ∀ (i : Instr) (s : State), s.seq = .idle → i.operation ≠ .format →
    exec i s = .next
      { s with
        seq := .running, done := false, dvalid := false, dkind := .crc16, dlen := 0, outlen := 0
        dig := Vector.replicate 32 0, outc := Vector.replicate 64 0
        curOp := i.operation, curAlg := i.algorithm, lenL := s.len, idx := 0, tainted := false
        acc16 := if i.algorithm = .crc16 then 0x0000 else s.acc16
        acc32 := if i.algorithm = .crc32 then 0xFFFFFFFF else s.acc32
        hreq := if isHash i.algorithm then .pending else s.hreq }

/-- 44_digest_formatter R196 to R200: in IDLE, with a digest of the command's own kind held, FORMAT
completes in its one step, and changes DONE, OUTLEN and OUTC alone. The strings of the CRC values are
their hexadecimal digits, most significant first (R191, R192). -/
def Obligations.FormatWritesTheStringOfTheDigest : Prop :=
  (∀ v : BitVec 16, fmtU16 v =
    [hexdigit (v.extractLsb' 12 4), hexdigit (v.extractLsb' 8 4), hexdigit (v.extractLsb' 4 4),
     hexdigit (v.extractLsb' 0 4)]) ∧
  (∀ v : BitVec 32, fmtU32 v =
    [hexdigit (v.extractLsb' 28 4), hexdigit (v.extractLsb' 24 4), hexdigit (v.extractLsb' 20 4),
     hexdigit (v.extractLsb' 16 4), hexdigit (v.extractLsb' 12 4), hexdigit (v.extractLsb' 8 4),
     hexdigit (v.extractLsb' 4 4), hexdigit (v.extractLsb' 0 4)]) ∧
  ∀ (s : State), s.seq = .idle → s.dvalid = true →
    (s.dkind = .crc16 → exec .formatCrc16 s = .next { s with
      done := true, outlen := 4, outc := windowOf 64 (fmtU16 (s.dig[1] ++ s.dig[0])) }) ∧
    (s.dkind = .crc32 → exec .formatCrc32 s = .next { s with
      done := true, outlen := 8
      outc := windowOf 64 (fmtU32 (s.dig[3] ++ s.dig[2] ++ s.dig[1] ++ s.dig[0])) }) ∧
    (s.dkind = .md5 → exec .formatMd5 s = .next { s with
      done := true, outlen := 32, outc := windowOf 64 (fmtBytes (s.dig.toList.take 16)) }) ∧
    (s.dkind = .sha1 → exec .formatSha1 s = .next { s with
      done := true, outlen := 40, outc := windowOf 64 (fmtBytes (s.dig.toList.take 20)) }) ∧
    (s.dkind = .sha256 → exec .formatSha256 s = .next { s with
      done := true, outlen := 64, outc := windowOf 64 (fmtBytes s.dig.toList) })

/-- 60_exceptions R214, R215: FORMAT without a digest is Fatal(3), with one of another kind Fatal(4). -/
def Obligations.FormatFaultsWithoutItsDigest : Prop :=
  FaultCode.digestNotValid.code = 3 ∧ FaultCode.digestKindMismatch.code = 4 ∧
  ∀ (s : State) (alg : AlgorithmKind), s.seq = .idle →
    (s.dvalid = false → exec (instrOf .format alg) s =
      .next { s with seq := .halted, fcode := .digestNotValid, done := false }) ∧
    (s.dvalid = true → s.dkind ≠ alg → exec (instrOf .format alg) s =
      .next { s with seq := .halted, fcode := .digestKindMismatch, done := false })

/-- 40_command_model R106, "FORMAT may be repeated": a second FORMAT of the kind leaves the state the first left. -/
def Obligations.FormatMayBeRepeated : Prop :=
  ∀ (s t : State) (alg : AlgorithmKind), s.seq = .idle → s.dvalid = true → s.dkind = alg →
    exec (instrOf .format alg) s = .next t → exec (instrOf .format alg) t = .next t

/-! ## The engine's and the HashUnit's steps -/

/-- 41_crc16 R135 with the step of R131: the CRC-16 byte step, and that it changes nothing else. -/
def Obligations.Crc16ByteStepEffect : Prop :=
  ∀ s : State, s.seq = .running → s.curAlg = .crc16 → s.idx < s.lenL →
    engineStep s = { s with
      acc16 := t16 (s.acc16.extractLsb' 8 8 ^^^ Memory.read s.buf s.idx.toNat) ^^^
        (s.acc16.extractLsb' 0 8 ++ 0#8)
      idx := s.idx + 1 }

/-- 42_crc32 R156 with the step of R152: the CRC-32 byte step, and that it changes nothing else. -/
def Obligations.Crc32ByteStepEffect : Prop :=
  ∀ s : State, s.seq = .running → s.curAlg = .crc32 → s.idx < s.lenL →
    engineStep s = { s with
      acc32 := (s.acc32 >>> 8) ^^^ t32 (s.acc32.extractLsb' 0 8 ^^^ Memory.read s.buf s.idx.toNat)
      idx := s.idx + 1 }

/-- 43_hash_delegation R171: the HashUnit step of each hash kind reads the whole buffer and answers; it
changes nothing else, and without a pending request the unit has no step. -/
def Obligations.HashUnitStepEffect : Prop :=
  ∀ s : State,
    (s.hreq = .pending → s.curAlg = .md5 → hashUnitStep s = { s with
      hreq := .answered, hans := hashMd5 ((List.range s.lenL.toNat).map (Memory.read s.buf)) }) ∧
    (s.hreq = .pending → s.curAlg = .sha1 → hashUnitStep s = { s with
      hreq := .answered, hans := hashSha1 ((List.range s.lenL.toNat).map (Memory.read s.buf)) }) ∧
    (s.hreq = .pending → s.curAlg = .sha256 → hashUnitStep s = { s with
      hreq := .answered, hans := hashSha256 ((List.range s.lenL.toNat).map (Memory.read s.buf)) }) ∧
    (s.hreq ≠ .pending → hashUnitStep s = s)

/-- 40_command_model R108: what the finish step stores, byte by byte, when no model-only fault struck
the command (then 60_exceptions R223 applies), the string being the formatter's, and its frame. -/
def Obligations.FinishEffect : Prop :=
  ∀ (d : Digest) (s : State), s.tainted = false →
    (s.curOp ≠ .run → finish d s = { s with
      dig := (finish d s).dig, dlen := BitVec.ofNat 32 (digestBytes d).length
      dkind := s.curAlg, dvalid := true, done := true, seq := .idle }) ∧
    (s.curOp = .run → finish d s = { s with
      dig := (finish d s).dig, dlen := BitVec.ofNat 32 (digestBytes d).length
      outc := (finish d s).outc, outlen := BitVec.ofNat 32 (fmtDigest d).length
      dkind := s.curAlg, dvalid := true, done := true, seq := .idle }) ∧
    (∀ i (h : i < 32), (finish d s).dig[i] =
      if i < (digestBytes d).length then (digestBytes d).getD i 0 else s.dig[i]) ∧
    (s.curOp = .run → ∀ i (h : i < 64), (finish d s).outc[i] =
      if i < (fmtDigest d).length then (fmtDigest d).getD i 0 else s.outc[i]) ∧
    (∀ v, d = .u16 v → digestBytes d = [v.extractLsb' 0 8, v.extractLsb' 8 8]) ∧
    (∀ v, d = .u32 v → digestBytes d =
      [v.extractLsb' 0 8, v.extractLsb' 8 8, v.extractLsb' 16 8, v.extractLsb' 24 8]) ∧
    (∀ b, d = .bytes b → digestBytes d = b) ∧
    (∀ str, format d s.curAlg = some str → str = fmtDigest d)

/-- 40_command_model R107: while RUNNING, the one step the engine takes, row by row, and when it holds;
in IDLE and HALTED it has no step. -/
def Obligations.EngineFinishesOrHolds : Prop :=
  ∀ s : State,
    (s.seq = .running → s.curAlg = .crc16 → s.idx < s.lenL → engineStep s = crc16ByteStep s) ∧
    (s.seq = .running → s.curAlg = .crc32 → s.idx < s.lenL → engineStep s = crc32ByteStep s) ∧
    (s.seq = .running → s.curAlg = .crc16 → s.idx = s.lenL →
      engineStep s = finish (.u16 s.acc16) s) ∧
    (s.seq = .running → s.curAlg = .crc32 → s.idx = s.lenL →
      engineStep s = finish (.u32 (s.acc32 ^^^ 0xFFFFFFFF)) s) ∧
    (s.seq = .running → isHash s.curAlg = true → s.hreq = .answered →
      engineStep s = { finish (.bytes s.hans) s with hreq := .none }) ∧
    (s.seq = .running → isHash s.curAlg = true → s.hreq ≠ .answered → engineStep s = s) ∧
    (s.seq ≠ .running → engineStep s = s)

/-! ## Whole commands -/

/-- 41_crc16 R137, R138 with 40_command_model R109, R110: RUN.CRC16 and COMPUTE.CRC16 answer a next
state, and LEN + 1 steps later, none of them another agent's, the command has ended with the CRC-16 of
the buffer; everything else is as it was. The schedule (log 5) and the taint (log 7) are the model's own. -/
def Obligations.Crc16CommandResult : Prop :=
  ∀ s : State, s.seq = .idle → s.sched = [] →
    (∃ t, exec .computeCrc16 s = .next t ∧ runSteps (s.len.toNat + 1) t = .next
      { s with
        done := true, dvalid := true, dkind := .crc16, curOp := .compute, curAlg := .crc16
        lenL := s.len, idx := s.len, acc16 := crc16 (Memory.range s.buf 0 s.len.toNat)
        dlen := 2, dig := windowOf 32 (digestBytes (.u16 (crc16 (Memory.range s.buf 0 s.len.toNat))))
        outlen := 0, outc := Vector.replicate 64 0, tainted := false }) ∧
    (∃ t, exec .runCrc16 s = .next t ∧ runSteps (s.len.toNat + 1) t = .next
      { s with
        done := true, dvalid := true, dkind := .crc16, curOp := .run, curAlg := .crc16
        lenL := s.len, idx := s.len, acc16 := crc16 (Memory.range s.buf 0 s.len.toNat)
        dlen := 2, dig := windowOf 32 (digestBytes (.u16 (crc16 (Memory.range s.buf 0 s.len.toNat))))
        outlen := 4, outc := windowOf 64 (fmtU16 (crc16 (Memory.range s.buf 0 s.len.toNat)))
        tainted := false })

/-- 42_crc32 R158, R159 with 40_command_model R109, R110: the same for RUN.CRC32 and COMPUTE.CRC32; ACC32
keeps the accumulator, whose complement is the CRC (R160). The schedule (log 5) and the taint (log 7)
are the model's own. -/
def Obligations.Crc32CommandResult : Prop :=
  ∀ s : State, s.seq = .idle → s.sched = [] →
    (∃ t, exec .computeCrc32 s = .next t ∧ runSteps (s.len.toNat + 1) t = .next
      { s with
        done := true, dvalid := true, dkind := .crc32, curOp := .compute, curAlg := .crc32
        lenL := s.len, idx := s.len, acc32 := ~~~ crc32 (Memory.range s.buf 0 s.len.toNat)
        dlen := 4, dig := windowOf 32 (digestBytes (.u32 (crc32 (Memory.range s.buf 0 s.len.toNat))))
        outlen := 0, outc := Vector.replicate 64 0, tainted := false }) ∧
    (∃ t, exec .runCrc32 s = .next t ∧ runSteps (s.len.toNat + 1) t = .next
      { s with
        done := true, dvalid := true, dkind := .crc32, curOp := .run, curAlg := .crc32
        lenL := s.len, idx := s.len, acc32 := ~~~ crc32 (Memory.range s.buf 0 s.len.toNat)
        dlen := 4, dig := windowOf 32 (digestBytes (.u32 (crc32 (Memory.range s.buf 0 s.len.toNat))))
        outlen := 8, outc := windowOf 64 (fmtU32 (crc32 (Memory.range s.buf 0 s.len.toNat)))
        tainted := false })

/-- 43_hash_delegation R174 to R179 with 40_command_model R109, R110: the six hash commands answer a
next state, and the HashUnit's and the engine's next steps end the command with the digest of the whole
buffer. The schedule (log 5) and the taint (log 7) are the model's own. -/
def Obligations.HashCommandResult : Prop :=
  ∀ (s : State) (alg : AlgorithmKind) (h : List Byte), s.seq = .idle → s.sched = [] →
    hashOf alg (Memory.range s.buf 0 s.len.toNat) = some h →
    (∃ t, exec (instrOf .compute alg) s = .next t ∧ runSteps 2 t = .next
      { s with
        done := true, dvalid := true, dkind := alg, curOp := .compute, curAlg := alg
        lenL := s.len, idx := 0, hreq := .none, hans := h
        dlen := BitVec.ofNat 32 (digestLength alg), dig := windowOf 32 h
        outlen := 0, outc := Vector.replicate 64 0, tainted := false }) ∧
    (∃ t, exec (instrOf .run alg) s = .next t ∧ runSteps 2 t = .next
      { s with
        done := true, dvalid := true, dkind := alg, curOp := .run, curAlg := alg
        lenL := s.len, idx := 0, hreq := .none, hans := h
        dlen := BitVec.ofNat 32 (digestLength alg), dig := windowOf 32 h
        outlen := BitVec.ofNat 32 (stringLength alg), outc := windowOf 64 (fmtBytes h)
        tainted := false })

/-- 40_command_model R109: "`RUN alg` ends in the same state as `COMPUTE alg` followed by `FORMAT alg`",
but for CUR_OP, for every algorithm. -/
def Obligations.RunEqualsComputeThenFormat : Prop :=
  ∀ (s : State) (alg : AlgorithmKind), s.seq = .idle → s.sched = [] →
    ∃ r0 r1 c0 c1 f,
      exec (instrOf .run alg) s = .next r0 ∧
      runSteps (commandSteps alg s.len) r0 = .next r1 ∧
      exec (instrOf .compute alg) s = .next c0 ∧
      runSteps (commandSteps alg s.len) c0 = .next c1 ∧
      exec (instrOf .format alg) c1 = .next f ∧
      f = { r1 with curOp := .compute }

/-- 40_command_model R101: the digest and the string depend on the buffer's contents and the algorithm
only, whatever else the two blocks hold. -/
def Obligations.ComputeIsPure : Prop :=
  ∀ (s u : State) (alg : AlgorithmKind), s.seq = .idle → u.seq = .idle → s.sched = [] →
    u.sched = [] → s.len = u.len →
    Memory.range s.buf 0 s.len.toNat = Memory.range u.buf 0 u.len.toNat →
    ∃ s0 u0 s1 u1, exec (instrOf .run alg) s = .next s0 ∧ exec (instrOf .run alg) u = .next u0 ∧
      runSteps (commandSteps alg s.len) s0 = .next s1 ∧
      runSteps (commandSteps alg s.len) u0 = .next u1 ∧
      s1.dig = u1.dig ∧ s1.dlen = u1.dlen ∧ s1.outc = u1.outc ∧ s1.outlen = u1.outlen

/-! ## CRC laws -/

/-- 41_crc16 R133: truncated to 16 bits, the source's accumulator takes the same step, and so gives
`crc16`, for every table, at every width of 16 bits and more and without a bound. -/
def Obligations.WideAccumulatorGivesTheSameCrc16 : Prop :=
  ∀ (table : Byte → BitVec 16) (s : List Byte),
    (∀ (W A : Nat) (b : Byte), 16 ≤ W → BitVec.ofNat 16
      (((table (BitVec.ofNat 8 (((A >>> 8) ^^^ b.toNat) &&& 0xFF))).toNat ^^^ (A <<< 8)) % 2 ^ W)
        = crc16StepWith table (BitVec.ofNat 16 A) b) ∧
    (∀ W, 16 ≤ W → BitVec.ofNat 16 (s.foldl (fun (A : Nat) b =>
      ((table (BitVec.ofNat 8 (((A >>> 8) ^^^ b.toNat) &&& 0xFF))).toNat ^^^ (A <<< 8)) % 2 ^ W) 0)
        = crc16With table s) ∧
    BitVec.ofNat 16 (s.foldl (fun (A : Nat) b =>
      (table (BitVec.ofNat 8 (((A >>> 8) ^^^ b.toNat) &&& 0xFF))).toNat ^^^ (A <<< 8)) 0)
        = crc16With table s

/-- 41_crc16 R139, R142: zero bytes in front of a sequence change nothing, for every table with entry 0 =
0x0000, and the device's table is one (R130). -/
def Obligations.LeadingZerosLeaveCrc16 : Prop :=
  t16 0 = 0 ∧ ∀ table : Byte → BitVec 16, table 0 = 0 → ∀ n : Nat,
    crc16With table (List.replicate n 0) = 0 ∧
    ∀ s, crc16With table (List.replicate n 0 ++ s) = crc16With table s

/-- 41_crc16 R140, R141: the CRC-16 of one and of two bytes, in terms of the table. -/
def Obligations.Crc16OfOneAndTwoBytes : Prop :=
  ∀ (table : Byte → BitVec 16) (b0 b1 : Byte),
    crc16With table [b0] = table b0 ∧
    crc16With table [b0, b1] =
      table ((table b0).extractLsb' 8 8 ^^^ b1) ^^^ ((table b0).extractLsb' 0 8 ++ 0#8) ∧
    (table 0 = 0 → crc16With table [0, b1] = table b1) ∧
    crc16With table [b0, 0] =
      table ((table b0).extractLsb' 8 8) ^^^ ((table b0).extractLsb' 0 8 ++ 0#8)

/-- 42_crc32 R150: T32 is the table the construction gives. -/
def Obligations.Crc32TableIsTheConstruction : Prop :=
  ∀ n : Byte, t32 n =
    (fun c : BitVec 32 => if c.getLsbD 0 then (c >>> 1) ^^^ 0xEDB88320 else c >>> 1)^[8] (n.setWidth 32)

/-- 42_crc32 R154: the check value. -/
def Obligations.Crc32CheckValue : Prop :=
  crc32 [0x31, 0x32, 0x33, 0x34, 0x35, 0x36, 0x37, 0x38, 0x39] = 0xCBF43926

/-- 42_crc32 R161: the CRC-32 of one byte. -/
def Obligations.Crc32OfOneByte : Prop :=
  ∀ b : Byte, crc32 [b] = ~~~ (0x00FFFFFF ^^^ t32 (b ^^^ 0xFF)) ∧
    crc32 [b] = 0xFF000000 ^^^ t32 (b ^^^ 0xFF)

/-! ## The formatter -/

/-- 44_digest_formatter R190: the sixteen digits. -/
def Obligations.HexDigitCodes : Prop :=
  (List.range 16).map (fun n => hexdigit (BitVec.ofNat 4 n)) =
    [0x30, 0x31, 0x32, 0x33, 0x34, 0x35, 0x36, 0x37, 0x38, 0x39, 0x41, 0x42, 0x43, 0x44, 0x45, 0x46]

/-- 44_digest_formatter R193: two digits per byte, in order, high nibble first; the encoding is injective. -/
def Obligations.FmtBytesIsTwoDigitsPerByteAndInjective : Prop :=
  (∀ d : List Byte, fmtBytes d =
    d.flatMap fun b => [hexdigit (b.extractLsb' 4 4), hexdigit (b.extractLsb' 0 4)]) ∧
  (∀ d : List Byte, (fmtBytes d).length = 2 * d.length) ∧
  ∀ d e : List Byte, fmtBytes d = fmtBytes e → d = e

/-- 44_digest_formatter R201, R202 (and the last sentence of R194): every digest of `compute` has a
string, of its kind's length, and every string of every digest is in the sixteen codes. -/
def Obligations.FormatOfComputeIsDefined : Prop :=
  (∀ (s : List Byte) (alg : AlgorithmKind), ∃ str,
    format (compute s alg) alg = some str ∧ str = fmtDigest (compute s alg) ∧
    str.length = stringLength alg) ∧
  [AlgorithmKind.crc16, .crc32, .md5, .sha1, .sha256].map stringLength = [4, 8, 32, 40, 64] ∧
  ∀ (d : Digest) (alg : AlgorithmKind) (str : List Byte), format d alg = some str →
    ∀ c ∈ str, (0x30 ≤ c.toNat ∧ c.toNat ≤ 0x39) ∨ (0x41 ≤ c.toNat ∧ c.toNat ≤ 0x46)

/-- 44_digest_formatter R203: two algorithms give different strings and different tagged digests,
although the digests as numbers can coincide. -/
def Obligations.AlgorithmsGiveDifferentStrings : Prop :=
  (∀ (s : List Byte) (a b : AlgorithmKind), a ≠ b →
    format (compute s a) a ≠ format (compute s b) b ∧ compute s a ≠ compute s b) ∧
  crc16 [] = 0x0000 ∧ crc32 [] = 0x00000000

/-- 43_hash_delegation R170, H-LEN and H-EMPTY: the lengths of the answers for every input, and the
strings of the empty-input digests. -/
def Obligations.HashProperties : Prop :=
  (∀ s, (hashMd5 s).length = 16 ∧ (hashSha1 s).length = 20 ∧ (hashSha256 s).length = 32) ∧
  fmtBytes (hashMd5 []) =
    "D41D8CD98F00B204E9800998ECF8427E".toList.map (fun c => BitVec.ofNat 8 c.toNat) ∧
  fmtBytes (hashSha1 []) =
    "DA39A3EE5E6B4B0D3255BFEF95601890AFD80709".toList.map (fun c => BitVec.ofNat 8 c.toNat) ∧
  fmtBytes (hashSha256 []) =
    "E3B0C44298FC1C149AFBF4C8996FB92427AE41E4649B934CA495991B7852B855".toList.map
      (fun c => BitVec.ofNat 8 c.toNat)

/-! ## The register space and the host -/

/-- 10_state R26: STATUS field by field, with the codes of 60_exceptions R210 and 30_encoding R72. -/
def Obligations.StatusFields : Prop :=
  [FaultCode.none, .invalidAlgorithm, .invalidCommand, .digestNotValid, .digestKindMismatch].map
    FaultCode.code = [0, 1, 2, 3, 4] ∧
  [AlgorithmKind.crc16, .crc32, .md5, .sha1, .sha256].map AlgorithmKind.code = [0, 1, 2, 3, 4] ∧
  ∀ s : State,
    ((regRead 0x04 s).getLsbD 0 = true ↔ s.seq = .running) ∧
    (regRead 0x04 s).getLsbD 1 = s.done ∧ (regRead 0x04 s).getLsbD 2 = s.dvalid ∧
    ((regRead 0x04 s).getLsbD 3 = true ↔ s.seq = .halted) ∧
    (regRead 0x04 s).extractLsb' 4 4 = s.fcode.code ∧
    (regRead 0x04 s).extractLsb' 8 3 = s.dkind.code ∧
    (regRead 0x04 s).extractLsb' 11 21 = 0

/-- 10_state R25, R27 to R32: the values of the other REG reads, offset by offset. -/
def Obligations.RegisterReadValues : Prop :=
  ∀ s : State, regRead 0x00 s = 0 ∧ regRead 0x08 s = s.len ∧
    (regRead 0x0C s = s.dlen &&& 0x3F) ∧ (regRead 0x10 s = s.outlen &&& 0x7F) ∧
    (∀ k (h : k < 8), regRead (0x20 + 4 * k) s =
      s.dig[4 * k + 3] ++ s.dig[4 * k + 2] ++ s.dig[4 * k + 1] ++ s.dig[4 * k]) ∧
    (∀ k (h : k < 16), regRead (0x40 + 4 * k) s =
      s.outc[4 * k + 3] ++ s.outc[4 * k + 2] ++ s.outc[4 * k + 1] ++ s.outc[4 * k]) ∧
    (∀ offset, (0x14 ≤ offset ∧ offset < 0x20) ∨ 0x80 ≤ offset → regRead offset s = 0)

/-- 10_state R27, R32: an admitted write reaches LEN in every STATE, and no other register but CMD. -/
def Obligations.RegisterWriteEffect : Prop :=
  ∀ (s : State) (v : Word) (rest : List HostOp),
    (s.hostq = .regWrite 0x08 4 v :: rest → hostStep s = .next { s with len := v, hostq := rest }) ∧
    (∀ offset, offset % 4 = 0 → offset < 0x100 → offset ≠ 0x00 → offset ≠ 0x08 →
      s.hostq = .regWrite offset 4 v :: rest → hostStep s = .next { s with hostq := rest })

/-- 20_memory R56: a read changes nothing but what the host has read; a read of CMD too. -/
def Obligations.ReadsHaveNoSideEffect : Prop :=
  ∀ (s : State) (rest : List HostOp),
    (∀ offset, offset % 4 = 0 → offset < 0x100 → s.hostq = .regRead offset 4 :: rest →
      hostStep s = .next
        { s with hostq := rest, reads := .reg offset (regRead offset s) :: s.reads }) ∧
    (∀ a, a < 2 ^ 32 → s.hostq = .bufRead a :: rest →
      hostStep s = .next { s with hostq := rest, reads := .buf a (Memory.read s.buf a) :: s.reads })

/-- 60_exceptions R225: a REG access that is not one aligned word below 0x100 sets REFUSED, returns no
value and changes no register, no BUF byte and no mark besides. The taint is the model's (log 8). -/
def Obligations.RefusedAccessSetsOnlyItsMark : Prop :=
  ∀ (s : State) (offset width : Nat) (v : Word) (rest : List HostOp),
    width ≠ 4 ∨ offset % 4 ≠ 0 ∨ 0x100 ≤ offset →
    s.hostq = .regRead offset width :: rest ∨ s.hostq = .regWrite offset width v :: rest →
      ∃ t, hostStep s = .next t ∧
        t = { s with hostq := rest, refused := true, tainted := t.tainted }

/-- 60_exceptions R224 with 20_memory R52: a BUF write of the host stores its byte at its address and
nowhere else, and sets CFAULT exactly when a command is in progress. -/
def Obligations.BufferWriteEffect : Prop :=
  ∀ (s : State) (a : Nat) (v : Byte) (rest : List HostOp),
    a < 2 ^ 32 → s.hostq = .bufWrite a v :: rest →
      ∃ t, hostStep s = .next t ∧
        t = { s with hostq := rest, buf := t.buf, cfault := t.cfault, tainted := t.tainted } ∧
        Memory.read t.buf a = v ∧ (∀ x, x ≠ a → Memory.read t.buf x = Memory.read s.buf x) ∧
        (s.seq = .running → t.cfault = true) ∧
        (s.seq ≠ .running → t.cfault = s.cfault ∧ t.tainted = s.tainted)

/-- 60_exceptions R223: after a model-only fault DLEN, OUTLEN, DKIND, DVALID, DONE and STATE follow the
rules, and the result bytes are free values, whatever the digest was. Free values: log 7. -/
def Obligations.FaultedCommandHasFreeResults : Prop :=
  ∀ (d e : Digest) (s : State), s.tainted = true →
    (digestBytes d).length = (digestBytes e).length → (fmtDigest d).length = (fmtDigest e).length →
    finish d s = finish e s ∧
    (∀ i (h : i < 32), i < (digestBytes d).length →
      (finish d s).dig[i] = Config.freeByte (s.freeCtr + i)) ∧
    (s.curOp = .run → ∀ i (h : i < 64), i < (fmtDigest d).length →
      (finish d s).outc[i] = Config.freeByte (s.freeCtr + 32 + i)) ∧
    (finish d s).dlen = (finish d { s with tainted := false }).dlen ∧
    (finish d s).outlen = (finish d { s with tainted := false }).outlen ∧
    (finish d s).dkind = s.curAlg ∧ (finish d s).dvalid = true ∧
    (finish d s).done = true ∧ (finish d s).seq = .idle

/-- 30_encoding R78 `BUFW`, 20_memory R60: with the host's turn throughout, the statement writes its
bytes in order and nothing else. -/
def Obligations.BufwWritesItsBytes : Prop :=
  ∀ (s : State) (a : Nat) (bytes : List Byte) (rest : List HostOp),
    s.seq ≠ .running → s.hreq = .none → s.sched = [] → a + bytes.length ≤ 2 ^ 32 →
    s.hostq = bufw a bytes ++ rest →
      ∃ m, runSteps bytes.length s = .next { s with hostq := rest, buf := m } ∧
        (∀ i (h : i < bytes.length), Memory.read m (a + i) = bytes[i]) ∧
        (∀ x, x < a ∨ a + bytes.length ≤ x → Memory.read m x = Memory.read s.buf x)

/-- 30_encoding R79: `WAIT` polls STATUS until BUSY = 0; `RDSTR` and `RDDIG` read the length and then
the words that cover it. -/
def Obligations.PseudoStatementsExpand : Prop :=
  ∀ (s : State) (rest : List HostOp),
    (s.hostq = .wait :: rest → s.seq = .running →
      hostStep s = .next { s with reads := .reg 0x04 (regRead 0x04 s) :: s.reads }) ∧
    (s.hostq = .wait :: rest → s.seq ≠ .running →
      hostStep s = .next { s with hostq := rest, reads := .reg 0x04 (regRead 0x04 s) :: s.reads }) ∧
    (s.hostq = .readString :: rest → hostStep s = .next { s with
      hostq := (List.range (((regRead 0x10 s).toNat + 3) / 4)).map (fun k => .regRead (0x40 + 4 * k) 4)
        ++ rest
      reads := .reg 0x10 (regRead 0x10 s) :: s.reads }) ∧
    (s.hostq = .readDigest :: rest → hostStep s = .next { s with
      hostq := (List.range (((regRead 0x0C s).toNat + 3) / 4)).map (fun k => .regRead (0x20 + 4 * k) 4)
        ++ rest
      reads := .reg 0x0C (regRead 0x0C s) :: s.reads })

/-! ## Frames and whole-machine rules -/

/-- 20_memory R58: the engine, the HashUnit, every command and reset leave every byte of BUF. -/
def Obligations.BlockNeverWritesBuf : Prop :=
  ∀ (s : State) (a : Nat),
    Memory.read (engineStep s).buf a = Memory.read s.buf a ∧
    Memory.read (hashUnitStep s).buf a = Memory.read s.buf a ∧
    Memory.read (platformReset s).buf a = Memory.read s.buf a ∧
    ∀ i t, exec i s = .next t → Memory.read t.buf a = Memory.read s.buf a

/-- 20_memory R52, R59: only the addresses below LEN_L reach the engine and the HashUnit. -/
def Obligations.OnlyTheBufferIsRead : Prop :=
  ∀ (s : State) (m : Memory), (∀ a, a < s.lenL.toNat → Memory.read m a = Memory.read s.buf a) →
    engineStep { s with buf := m } = { engineStep s with buf := m } ∧
    hashUnitStep { s with buf := m } = { hashUnitStep s with buf := m }

/-- 70_reset_and_hazards R248: accept copies LEN to LEN_L, and a LEN write after that reaches no step of
the engine or the HashUnit. -/
def Obligations.LenWriteDoesNotReachTheCommand : Prop :=
  ∀ (s : State) (v : Word),
    (∀ i : Instr, s.seq = .idle → i.operation ≠ .format → ∃ t, exec i s = .next t ∧ t.lenL = s.len) ∧
    engineStep { s with len := v } = { engineStep s with len := v } ∧
    hashUnitStep { s with len := v } = { hashUnitStep s with len := v }

/-- 60_exceptions R219: HALTED stays, with its code and every result, through every step but reset. The
invariant rules out a request pending in HALTED, which no run reaches. -/
def Obligations.HaltedUntilReset : Prop :=
  ∀ (a : Agent) (s t : State), Inv s → s.seq = .halted → a ≠ .platform →
    agentStep a s = .next t →
      t = { s with len := t.len, buf := t.buf, refused := t.refused, hostq := t.hostq, reads := t.reads }

/-- 70_reset_and_hazards R240, R244: reset, in any state, drops the command and its request and leaves
no result; BUF and the marks stay. That the host's whole program stays, of which R244 says it only of a
held CMD write, is the model's deduction (log 13). -/
def Obligations.ResetEffect : Prop :=
  ∀ s : State, ∃ t, agentStep .platform s = .next t ∧
    t.seq = .idle ∧ statusWord t = 0 ∧ t.len = 0 ∧ t.dlen = 0 ∧ t.outlen = 0 ∧
    t.dig = Vector.replicate 32 0 ∧ t.outc = Vector.replicate 64 0 ∧ t.hreq = .none ∧
    t.buf = s.buf ∧ t.cfault = s.cfault ∧ t.refused = s.refused ∧ t.hostq = s.hostq ∧
    hashUnitStep t = t ∧ engineStep t = t

/-- 10_state R41: what reset leaves, as the host reads it: every register and window word reads 0. -/
def Obligations.ResetReadsZero : Prop :=
  State.reset.seq = .idle ∧ State.reset.hreq = .none ∧ marksClear State.reset = true ∧
  ∀ offset, regRead offset State.reset = 0

/-- 10_state R40: no step, reset among them, clears CFAULT or REFUSED. -/
def Obligations.MarksAreNeverCleared : Prop :=
  ∀ s t : State, step s = .next t →
    (s.cfault = true → t.cfault = true) ∧ (s.refused = true → t.refused = true)

/-- 70_reset_and_hazards R242, "only accept enters RUNNING": a step into RUNNING is the host's, taking the word of
a RUN or COMPUTE command in IDLE. -/
def Obligations.OnlyAcceptEntersRunning : Prop :=
  ∀ s t : State, step s = .next t → s.seq ≠ .running → t.seq = .running →
    s.seq = .idle ∧ nextAgent s = .host ∧
      ∃ i rest, s.hostq = .regWrite 0x00 4 (encode i) :: rest ∧ i.operation ≠ .format

/-- 70_reset_and_hazards R242: the registers without a reset value are never read before they are
written. Two states that differ in nothing else stop alike or step to two such states, so nothing that
a run shows depends on the values log 1 chose. -/
def Obligations.RegistersWithoutAValueAreNeverRead : Prop :=
  ∀ s u : State, Inv s → Inv u → forgetUnread s = forgetUnread u →
    (∀ t, step s = .next t → ∃ v, step u = .next v ∧ forgetUnread t = forgetUnread v) ∧
    (∀ f, step s = .fault f → step u = .fault f) ∧
    observe s = observe u

/-- No step is refused, and a step faults only where the host reaches for a BUF address that 20_memory
R50 says does not exist (log 9). -/
def Obligations.StepStopsOnlyAtAMissingAddress : Prop :=
  ∀ s : State, (∀ r, step s ≠ .refused r) ∧
    ((∃ f, step s = .fault f) ↔ nextAgent s = .host ∧ ∃ a rest, 2 ^ 32 ≤ a ∧
      (s.hostq = .bufRead a :: rest ∨ ∃ v, s.hostq = .bufWrite a v :: rest))

/-! ## Invariants and liveness -/

/-- The invariant and the progress of a command hold in every launch state with a canonical buffer
(70_reset_and_hazards R255). -/
def Obligations.LaunchMeetsTheInvariant : Prop :=
  ∀ (program : List HostOp) (buf : Memory) (sched : List Agent), Memory.wf buf = true →
    Inv (launch program buf sched) ∧ Progress (launch program buf sched)

/-- Every step of every agent keeps the invariant. -/
def Obligations.StepKeepsTheInvariant : Prop :=
  ∀ s t : State, Inv s → step s = .next t → Inv t

/-- 41_crc16 R136, 42_crc32 R157 "by induction on IDX": every step of every agent keeps a command's
progress. The invariant rules out a stale answer in IDLE, which no run reaches. -/
def Obligations.StepKeepsProgress : Prop :=
  ∀ s t : State, Inv s → Progress s → step s = .next t → Progress t

/-- 40_command_model R109 under any interleaving: whatever the other agents did meanwhile, a step that
ends an unfaulted command, other than by reset, leaves `compute` of the buffer, and after RUN its string. -/
def Obligations.FinishStoresTheDigestOfTheBuffer : Prop :=
  ∀ s t : State, Inv s → Progress s → s.seq = .running → s.tainted = false →
    nextAgent s ≠ .platform → step s = .next t → t.seq ≠ .running →
      t.seq = .idle ∧ t.done = true ∧ t.dvalid = true ∧ t.dkind = s.curAlg ∧
      t.dig = windowOf 32 (digestBytes (compute (bufContents s) s.curAlg)) ∧
      t.dlen.toNat = digestLength s.curAlg ∧
      (s.curOp = .run → t.outc = windowOf 64 (fmtDigest (compute (bufContents s) s.curAlg)) ∧
        t.outlen.toNat = stringLength s.curAlg) ∧
      (s.curOp = .compute → t.outc = Vector.replicate 64 0 ∧ t.outlen = 0)

/-- 10_state R26: BUSY and FATAL are never both 1, nor DONE and BUSY. The second needs the invariant,
which rules out states that no run reaches. -/
def Obligations.StatusBitsExclude : Prop :=
  ∀ s : State, ((regRead 0x04 s).getLsbD 0 && (regRead 0x04 s).getLsbD 3) = false ∧
    (Inv s → ((regRead 0x04 s).getLsbD 1 && (regRead 0x04 s).getLsbD 0) = false)

/-- 70_reset_and_hazards R251, 40_command_model R110: a command in progress ends, a CRC after exactly
the steps its bytes still need and its finish, when the schedule names nobody else (log 5). -/
def Obligations.RunningCommandEnds : Prop :=
  ∀ s : State, Inv s → s.seq = .running → s.sched = [] →
    (∃ n t, n ≤ s.lenL.toNat + 2 ∧ runSteps n s = .next t ∧ t.seq = .idle ∧ t.done = true) ∧
    (isHash s.curAlg = false → ∃ t,
      runSteps (s.lenL.toNat - s.idx.toNat + 1) s = .next t ∧ t.seq = .idle ∧ t.done = true ∧
      ∀ k u, k ≤ s.lenL.toNat - s.idx.toNat → runSteps k s = .next u → u.seq = .running)

/-- 70_reset_and_hazards R254: the end of a run is the first state in which the program is over and no
command is in progress, it is the same however many steps are allowed, its observation is the run's, and
it is a successful end when FATAL = 0 and both marks are clear. That every read of the host is in the
observation, those of `WAIT` among them, is the model's choice (log 14). -/
def Obligations.RunEndsAtTheFirstEndState : Prop :=
  (∀ (n : Nat) (s t : State), runToEnd n s = some t ↔
    ∃ k, k ≤ n ∧ runSteps k s = .next t ∧ (t.hostq = [] ∧ t.seq ≠ .running) ∧
      ∀ j u, j < k → runSteps j s = .next u → ¬ (u.hostq = [] ∧ u.seq ≠ .running)) ∧
  (∀ (m n : Nat) (s t u : State), runToEnd m s = some t → runToEnd n s = some u → t = u) ∧
  (∀ (n : Nat) (s t : State), runToEnd n s = some t →
    observeRun n s = some ⟨statusWord t, t.dlen, t.dig, t.outlen, t.outc, t.reads⟩ ∧
    (runSucceeded n s = true ↔ t.seq ≠ .halted ∧ t.cfault = false ∧ t.refused = false)) ∧
  ∀ (n : Nat) (s : State), runToEnd n s = none → observeRun n s = none ∧ runSucceeded n s = false
end

