-- ==== Sys2Proof/Laws/Memory.lean ====
section
/-! SUPPORT. BUF as a map: reads after writes, the canonical form, and the buffer as a list; the byte windows. -/

namespace Sys2Proof.Machine

/-! ## Reads after writes -/

theorem Memory.lookup_write_same (m : Memory) (a : Nat) (v : Byte) :
    (Memory.write m a v).lookup a = some v := by
  induction m with
  | nil => simp [Memory.write, Memory.lookup]
  | cons c m ih =>
    obtain ⟨k, w⟩ := c
    by_cases h1 : a < k
    · simp [Memory.write, Memory.lookup, h1]
    · by_cases h2 : a = k
      · simp [Memory.write, Memory.lookup, h2]
      · simp [Memory.write, Memory.lookup, h1, h2, Ne.symm h2, ih]

theorem Memory.lookup_write_other (m : Memory) (a x : Nat) (v : Byte) (h : x ≠ a) :
    (Memory.write m a v).lookup x = m.lookup x := by
  induction m with
  | nil => simp [Memory.write, Memory.lookup, Ne.symm h]
  | cons c m ih =>
    obtain ⟨k, w⟩ := c
    by_cases h1 : a < k
    · simp [Memory.write, Memory.lookup, h1, Ne.symm h]
    · by_cases h2 : a = k
      · subst h2
        simp [Memory.write, Memory.lookup, Ne.symm h]
      · simp [Memory.write, Memory.lookup, h1, h2, ih]

@[simp] theorem Memory.read_write_same (m : Memory) (a : Nat) (v : Byte) :
    (Memory.write m a v).read a = v := by
  simp [Memory.read, Memory.lookup_write_same]

theorem Memory.read_write_other (m : Memory) (a x : Nat) (v : Byte) (h : x ≠ a) :
    (Memory.write m a v).read x = m.read x := by
  simp [Memory.read, Memory.lookup_write_other m a x v h]

/-! ## The canonical form -/

theorem Memory.rising_write (m : Memory) (a : Nat) (v : Byte) (lo : Option Nat)
    (hm : Memory.rising lo m = true) (hlo : ∀ l, lo = some l → l < a) :
    Memory.rising lo (Memory.write m a v) = true := by
  induction m generalizing lo with
  | nil => cases lo <;> simp_all [Memory.write, Memory.rising]
  | cons c m ih =>
    obtain ⟨k, w⟩ := c
    simp only [Memory.rising, Bool.and_eq_true] at hm
    by_cases h1 : a < k
    · cases lo <;> simp_all [Memory.write, Memory.rising]
    · by_cases h2 : a = k
      · cases lo <;> simp_all [Memory.write, Memory.rising]
      · have hk : k < a := by omega
        have hw : Memory.write ((k, w) :: m) a v = (k, w) :: Memory.write m a v := by
          simp [Memory.write, h1, h2]
        rw [hw]
        simp only [Memory.rising, Bool.and_eq_true]
        exact ⟨hm.1, ih (some k) hm.2 (by simpa using hk)⟩

theorem Memory.all_write (p : Host.Cell → Bool) (m : Memory) (a : Nat) (v : Byte)
    (hm : m.all p = true) (ha : p (a, v) = true) : (Memory.write m a v).all p = true := by
  induction m with
  | nil => simp [Memory.write, ha]
  | cons c m ih =>
    obtain ⟨k, w⟩ := c
    simp only [List.all_cons, Bool.and_eq_true] at hm
    by_cases h1 : a < k
    · simp [Memory.write, h1, ha, hm]
    · by_cases h2 : a = k
      · simp [Memory.write, h2]
        exact ⟨by rw [← h2]; exact ha, by simpa using hm.2⟩
      · simp only [Memory.write, h1, h2, if_false, List.all_cons, Bool.and_eq_true]
        exact ⟨hm.1, ih hm.2⟩

/-- The one operation that changes BUF keeps its canonical form. -/
theorem Memory.wf_write (m : Memory) (a : Nat) (v : Byte) (hm : Memory.wf m = true)
    (ha : a < Config.bufSize) : Memory.wf (Memory.write m a v) = true := by
  simp only [Memory.wf, Bool.and_eq_true] at hm ⊢
  exact ⟨Memory.rising_write m a v none hm.1 (by simp),
    Memory.all_write _ m a v hm.2 (by simpa using ha)⟩

/-! ## The buffer as a list -/

@[simp] theorem Memory.length_range (m : Memory) (a n : Nat) : (Memory.range m a n).length = n := by
  induction n generalizing a with
  | zero => rfl
  | succ n ih => simp [Memory.range, ih]

/-- One more byte joins at the end. -/
theorem Memory.range_succ (m : Memory) (a n : Nat) :
    Memory.range m a (n + 1) = Memory.range m a n ++ [Memory.read m (a + n)] := by
  induction n generalizing a with
  | zero => simp [Memory.range]
  | succ n ih =>
    rw [Memory.range, ih (a + 1)]
    simp [Memory.range, Nat.add_assoc, Nat.add_comm 1 n]

theorem Memory.range_eq_map (m : Memory) (n : Nat) :
    Memory.range m 0 n = (List.range n).map (Memory.read m) := by
  induction n with
  | zero => rfl
  | succ n ih => rw [Memory.range_succ, ih, List.range_succ]; simp

theorem Memory.range_congr (m k : Memory) (n : Nat)
    (h : ∀ a, a < n → Memory.read m a = Memory.read k a) :
    Memory.range m 0 n = Memory.range k 0 n := by
  rw [Memory.range_eq_map, Memory.range_eq_map]
  exact List.map_congr_left fun a ha => h a (List.mem_range.mp ha)

/-! ## Byte windows -/

theorem overlay_getElem? (new old : List Byte) (i : Nat) :
    (overlay new old)[i]? = if i < old.length then (if i < new.length then new[i]? else old[i]?) else none := by
  induction new generalizing old i with
  | nil =>
    simp only [overlay, List.length_nil, Nat.not_lt_zero, if_false]
    split <;> simp_all
  | cons n new ih =>
    cases old with
    | nil => simp [overlay]
    | cons o old =>
      cases i with
      | zero => simp [overlay]
      | succ i => simp [overlay, ih]

/-- Element by element, a window written at its front. -/
theorem writeFront_getElem {n : Nat} (v : Vector Byte n) (bytes : List Byte) (i : Nat) (h : i < n) :
    (writeFront v bytes)[i] = if i < bytes.length then bytes.getD i 0 else v[i] := by
  have hv : i < v.toList.length := by simpa using h
  have h1 : (overlay bytes v.toList)[i]? = some (writeFront v bytes)[i] := by
    have : (overlay bytes v.toList)[i]? = (writeFront v bytes).toList[i]? := rfl
    rw [this, List.getElem?_eq_getElem (by simpa using h), Vector.getElem_toList]
  rw [overlay_getElem?, if_pos hv] at h1
  by_cases hb : i < bytes.length
  · rw [if_pos hb, List.getElem?_eq_getElem hb] at h1
    simp only [if_pos hb, List.getD_eq_getElem?_getD, List.getElem?_eq_getElem hb, Option.getD_some]
    exact (Option.some.inj h1).symm
  · rw [if_neg hb, List.getElem?_eq_getElem hv, Vector.getElem_toList] at h1
    simp only [if_neg hb]
    exact (Option.some.inj h1).symm

@[simp] theorem freeBytes_length (k n : Nat) : (freeBytes k n).length = n := by
  induction n generalizing k with
  | zero => rfl
  | succ n ih => simp [freeBytes, ih]

theorem freeBytes_getD (k n i : Nat) (h : i < n) : (freeBytes k n).getD i 0 = Config.freeByte (k + i) := by
  induction n generalizing k i with
  | zero => omega
  | succ n ih =>
    cases i with
    | zero => simp [freeBytes]
    | succ i =>
      have := ih (k + 1) i (by omega)
      simpa [freeBytes, Nat.add_assoc, Nat.add_comm 1 i] using this

@[simp] theorem resultBytes_length (s : State) (k : Nat) (b : List Byte) :
    (resultBytes s k b).length = b.length := by
  unfold resultBytes; split <;> simp

theorem resultBytes_clean (s : State) (k : Nat) (b : List Byte) (h : s.tainted = false) :
    resultBytes s k b = b := by
  simp [resultBytes, h]

end Sys2Proof.Machine
end

