-- ==== Sys2Proof/Laws/PerInstr.lean ====
section
/-! SUPPORT. Per-instruction families: Encoding, that a command is well-formed, its word decodes back to it, and its word is the one of its operation and algorithm (30_encoding R75). -/

namespace Sys2Proof.Laws

/-- The encoding of one command (30_encoding R75). -/
def Encoding.Statement (i : Instr) : Prop :=
  i.wellFormed = true ∧ decode (encode i) = .ok i ∧ instrOf i.operation i.algorithm = i

theorem Encoding.runCrc16 : Encoding.Statement .runCrc16 := by unfold Encoding.Statement; decide
theorem Encoding.computeCrc16 : Encoding.Statement .computeCrc16 := by unfold Encoding.Statement; decide
theorem Encoding.formatCrc16 : Encoding.Statement .formatCrc16 := by unfold Encoding.Statement; decide
theorem Encoding.runCrc32 : Encoding.Statement .runCrc32 := by unfold Encoding.Statement; decide
theorem Encoding.computeCrc32 : Encoding.Statement .computeCrc32 := by unfold Encoding.Statement; decide
theorem Encoding.formatCrc32 : Encoding.Statement .formatCrc32 := by unfold Encoding.Statement; decide
theorem Encoding.runMd5 : Encoding.Statement .runMd5 := by unfold Encoding.Statement; decide
theorem Encoding.computeMd5 : Encoding.Statement .computeMd5 := by unfold Encoding.Statement; decide
theorem Encoding.formatMd5 : Encoding.Statement .formatMd5 := by unfold Encoding.Statement; decide
theorem Encoding.runSha1 : Encoding.Statement .runSha1 := by unfold Encoding.Statement; decide
theorem Encoding.computeSha1 : Encoding.Statement .computeSha1 := by unfold Encoding.Statement; decide
theorem Encoding.formatSha1 : Encoding.Statement .formatSha1 := by unfold Encoding.Statement; decide
theorem Encoding.runSha256 : Encoding.Statement .runSha256 := by unfold Encoding.Statement; decide
theorem Encoding.computeSha256 : Encoding.Statement .computeSha256 := by unfold Encoding.Statement; decide
theorem Encoding.formatSha256 : Encoding.Statement .formatSha256 := by unfold Encoding.Statement; decide

end Sys2Proof.Laws
end

