-- ==== Sys2Proof/Laws/State.lean ====
section
/-! SUPPORT. What each named operation leaves in each field of State: one lemma per field per operation, true by rfl. -/

namespace Sys2Proof.Machine

/-! ## storeDigest -/

@[simp] theorem storeDigest_seq (b : List Byte) (s : State) : (storeDigest b s).seq = s.seq := rfl
@[simp] theorem storeDigest_done (b : List Byte) (s : State) : (storeDigest b s).done = s.done := rfl
@[simp] theorem storeDigest_dvalid (b : List Byte) (s : State) : (storeDigest b s).dvalid = s.dvalid := rfl
@[simp] theorem storeDigest_fcode (b : List Byte) (s : State) : (storeDigest b s).fcode = s.fcode := rfl
@[simp] theorem storeDigest_dkind (b : List Byte) (s : State) : (storeDigest b s).dkind = s.dkind := rfl
@[simp] theorem storeDigest_len (b : List Byte) (s : State) : (storeDigest b s).len = s.len := rfl
@[simp] theorem storeDigest_dlen (b : List Byte) (s : State) : (storeDigest b s).dlen = BitVec.ofNat 32 b.length := rfl
@[simp] theorem storeDigest_outlen (b : List Byte) (s : State) : (storeDigest b s).outlen = s.outlen := rfl
@[simp] theorem storeDigest_dig (b : List Byte) (s : State) : (storeDigest b s).dig = writeFront s.dig b := rfl
@[simp] theorem storeDigest_outc (b : List Byte) (s : State) : (storeDigest b s).outc = s.outc := rfl
@[simp] theorem storeDigest_acc16 (b : List Byte) (s : State) : (storeDigest b s).acc16 = s.acc16 := rfl
@[simp] theorem storeDigest_acc32 (b : List Byte) (s : State) : (storeDigest b s).acc32 = s.acc32 := rfl
@[simp] theorem storeDigest_idx (b : List Byte) (s : State) : (storeDigest b s).idx = s.idx := rfl
@[simp] theorem storeDigest_lenL (b : List Byte) (s : State) : (storeDigest b s).lenL = s.lenL := rfl
@[simp] theorem storeDigest_curOp (b : List Byte) (s : State) : (storeDigest b s).curOp = s.curOp := rfl
@[simp] theorem storeDigest_curAlg (b : List Byte) (s : State) : (storeDigest b s).curAlg = s.curAlg := rfl
@[simp] theorem storeDigest_hreq (b : List Byte) (s : State) : (storeDigest b s).hreq = s.hreq := rfl
@[simp] theorem storeDigest_hans (b : List Byte) (s : State) : (storeDigest b s).hans = s.hans := rfl
@[simp] theorem storeDigest_buf (b : List Byte) (s : State) : (storeDigest b s).buf = s.buf := rfl
@[simp] theorem storeDigest_cfault (b : List Byte) (s : State) : (storeDigest b s).cfault = s.cfault := rfl
@[simp] theorem storeDigest_refused (b : List Byte) (s : State) : (storeDigest b s).refused = s.refused := rfl
@[simp] theorem storeDigest_tainted (b : List Byte) (s : State) : (storeDigest b s).tainted = s.tainted := rfl
@[simp] theorem storeDigest_freeCtr (b : List Byte) (s : State) : (storeDigest b s).freeCtr = s.freeCtr := rfl
@[simp] theorem storeDigest_hostq (b : List Byte) (s : State) : (storeDigest b s).hostq = s.hostq := rfl
@[simp] theorem storeDigest_reads (b : List Byte) (s : State) : (storeDigest b s).reads = s.reads := rfl
@[simp] theorem storeDigest_sched (b : List Byte) (s : State) : (storeDigest b s).sched = s.sched := rfl

/-! ## writeOut -/

@[simp] theorem writeOut_seq (b : List Byte) (s : State) : (writeOut b s).seq = s.seq := rfl
@[simp] theorem writeOut_done (b : List Byte) (s : State) : (writeOut b s).done = s.done := rfl
@[simp] theorem writeOut_dvalid (b : List Byte) (s : State) : (writeOut b s).dvalid = s.dvalid := rfl
@[simp] theorem writeOut_fcode (b : List Byte) (s : State) : (writeOut b s).fcode = s.fcode := rfl
@[simp] theorem writeOut_dkind (b : List Byte) (s : State) : (writeOut b s).dkind = s.dkind := rfl
@[simp] theorem writeOut_len (b : List Byte) (s : State) : (writeOut b s).len = s.len := rfl
@[simp] theorem writeOut_dlen (b : List Byte) (s : State) : (writeOut b s).dlen = s.dlen := rfl
@[simp] theorem writeOut_outlen (b : List Byte) (s : State) : (writeOut b s).outlen = BitVec.ofNat 32 b.length := rfl
@[simp] theorem writeOut_dig (b : List Byte) (s : State) : (writeOut b s).dig = s.dig := rfl
@[simp] theorem writeOut_outc (b : List Byte) (s : State) : (writeOut b s).outc = writeFront s.outc b := rfl
@[simp] theorem writeOut_acc16 (b : List Byte) (s : State) : (writeOut b s).acc16 = s.acc16 := rfl
@[simp] theorem writeOut_acc32 (b : List Byte) (s : State) : (writeOut b s).acc32 = s.acc32 := rfl
@[simp] theorem writeOut_idx (b : List Byte) (s : State) : (writeOut b s).idx = s.idx := rfl
@[simp] theorem writeOut_lenL (b : List Byte) (s : State) : (writeOut b s).lenL = s.lenL := rfl
@[simp] theorem writeOut_curOp (b : List Byte) (s : State) : (writeOut b s).curOp = s.curOp := rfl
@[simp] theorem writeOut_curAlg (b : List Byte) (s : State) : (writeOut b s).curAlg = s.curAlg := rfl
@[simp] theorem writeOut_hreq (b : List Byte) (s : State) : (writeOut b s).hreq = s.hreq := rfl
@[simp] theorem writeOut_hans (b : List Byte) (s : State) : (writeOut b s).hans = s.hans := rfl
@[simp] theorem writeOut_buf (b : List Byte) (s : State) : (writeOut b s).buf = s.buf := rfl
@[simp] theorem writeOut_cfault (b : List Byte) (s : State) : (writeOut b s).cfault = s.cfault := rfl
@[simp] theorem writeOut_refused (b : List Byte) (s : State) : (writeOut b s).refused = s.refused := rfl
@[simp] theorem writeOut_tainted (b : List Byte) (s : State) : (writeOut b s).tainted = s.tainted := rfl
@[simp] theorem writeOut_freeCtr (b : List Byte) (s : State) : (writeOut b s).freeCtr = s.freeCtr := rfl
@[simp] theorem writeOut_hostq (b : List Byte) (s : State) : (writeOut b s).hostq = s.hostq := rfl
@[simp] theorem writeOut_reads (b : List Byte) (s : State) : (writeOut b s).reads = s.reads := rfl
@[simp] theorem writeOut_sched (b : List Byte) (s : State) : (writeOut b s).sched = s.sched := rfl

/-! ## clearOut -/

@[simp] theorem clearOut_seq (s : State) : (clearOut s).seq = s.seq := rfl
@[simp] theorem clearOut_done (s : State) : (clearOut s).done = s.done := rfl
@[simp] theorem clearOut_dvalid (s : State) : (clearOut s).dvalid = s.dvalid := rfl
@[simp] theorem clearOut_fcode (s : State) : (clearOut s).fcode = s.fcode := rfl
@[simp] theorem clearOut_dkind (s : State) : (clearOut s).dkind = s.dkind := rfl
@[simp] theorem clearOut_len (s : State) : (clearOut s).len = s.len := rfl
@[simp] theorem clearOut_dlen (s : State) : (clearOut s).dlen = s.dlen := rfl
@[simp] theorem clearOut_outlen (s : State) : (clearOut s).outlen = 0 := rfl
@[simp] theorem clearOut_dig (s : State) : (clearOut s).dig = s.dig := rfl
@[simp] theorem clearOut_outc (s : State) : (clearOut s).outc = Vector.replicate 64 0 := rfl
@[simp] theorem clearOut_acc16 (s : State) : (clearOut s).acc16 = s.acc16 := rfl
@[simp] theorem clearOut_acc32 (s : State) : (clearOut s).acc32 = s.acc32 := rfl
@[simp] theorem clearOut_idx (s : State) : (clearOut s).idx = s.idx := rfl
@[simp] theorem clearOut_lenL (s : State) : (clearOut s).lenL = s.lenL := rfl
@[simp] theorem clearOut_curOp (s : State) : (clearOut s).curOp = s.curOp := rfl
@[simp] theorem clearOut_curAlg (s : State) : (clearOut s).curAlg = s.curAlg := rfl
@[simp] theorem clearOut_hreq (s : State) : (clearOut s).hreq = s.hreq := rfl
@[simp] theorem clearOut_hans (s : State) : (clearOut s).hans = s.hans := rfl
@[simp] theorem clearOut_buf (s : State) : (clearOut s).buf = s.buf := rfl
@[simp] theorem clearOut_cfault (s : State) : (clearOut s).cfault = s.cfault := rfl
@[simp] theorem clearOut_refused (s : State) : (clearOut s).refused = s.refused := rfl
@[simp] theorem clearOut_tainted (s : State) : (clearOut s).tainted = s.tainted := rfl
@[simp] theorem clearOut_freeCtr (s : State) : (clearOut s).freeCtr = s.freeCtr := rfl
@[simp] theorem clearOut_hostq (s : State) : (clearOut s).hostq = s.hostq := rfl
@[simp] theorem clearOut_reads (s : State) : (clearOut s).reads = s.reads := rfl
@[simp] theorem clearOut_sched (s : State) : (clearOut s).sched = s.sched := rfl

/-! ## clearResults -/

@[simp] theorem clearResults_seq (s : State) : (clearResults s).seq = s.seq := rfl
@[simp] theorem clearResults_done (s : State) : (clearResults s).done = s.done := rfl
@[simp] theorem clearResults_dvalid (s : State) : (clearResults s).dvalid = false := rfl
@[simp] theorem clearResults_fcode (s : State) : (clearResults s).fcode = s.fcode := rfl
@[simp] theorem clearResults_dkind (s : State) : (clearResults s).dkind = .crc16 := rfl
@[simp] theorem clearResults_len (s : State) : (clearResults s).len = s.len := rfl
@[simp] theorem clearResults_dlen (s : State) : (clearResults s).dlen = 0 := rfl
@[simp] theorem clearResults_outlen (s : State) : (clearResults s).outlen = 0 := rfl
@[simp] theorem clearResults_dig (s : State) : (clearResults s).dig = Vector.replicate 32 0 := rfl
@[simp] theorem clearResults_outc (s : State) : (clearResults s).outc = Vector.replicate 64 0 := rfl
@[simp] theorem clearResults_acc16 (s : State) : (clearResults s).acc16 = s.acc16 := rfl
@[simp] theorem clearResults_acc32 (s : State) : (clearResults s).acc32 = s.acc32 := rfl
@[simp] theorem clearResults_idx (s : State) : (clearResults s).idx = s.idx := rfl
@[simp] theorem clearResults_lenL (s : State) : (clearResults s).lenL = s.lenL := rfl
@[simp] theorem clearResults_curOp (s : State) : (clearResults s).curOp = s.curOp := rfl
@[simp] theorem clearResults_curAlg (s : State) : (clearResults s).curAlg = s.curAlg := rfl
@[simp] theorem clearResults_hreq (s : State) : (clearResults s).hreq = s.hreq := rfl
@[simp] theorem clearResults_hans (s : State) : (clearResults s).hans = s.hans := rfl
@[simp] theorem clearResults_buf (s : State) : (clearResults s).buf = s.buf := rfl
@[simp] theorem clearResults_cfault (s : State) : (clearResults s).cfault = s.cfault := rfl
@[simp] theorem clearResults_refused (s : State) : (clearResults s).refused = s.refused := rfl
@[simp] theorem clearResults_tainted (s : State) : (clearResults s).tainted = s.tainted := rfl
@[simp] theorem clearResults_freeCtr (s : State) : (clearResults s).freeCtr = s.freeCtr := rfl
@[simp] theorem clearResults_hostq (s : State) : (clearResults s).hostq = s.hostq := rfl
@[simp] theorem clearResults_reads (s : State) : (clearResults s).reads = s.reads := rfl
@[simp] theorem clearResults_sched (s : State) : (clearResults s).sched = s.sched := rfl

/-! ## raiseFatal -/

@[simp] theorem raiseFatal_seq (c : FaultCode) (s : State) : (raiseFatal c s).seq = .halted := rfl
@[simp] theorem raiseFatal_done (c : FaultCode) (s : State) : (raiseFatal c s).done = false := rfl
@[simp] theorem raiseFatal_dvalid (c : FaultCode) (s : State) : (raiseFatal c s).dvalid = s.dvalid := rfl
@[simp] theorem raiseFatal_fcode (c : FaultCode) (s : State) : (raiseFatal c s).fcode = c := rfl
@[simp] theorem raiseFatal_dkind (c : FaultCode) (s : State) : (raiseFatal c s).dkind = s.dkind := rfl
@[simp] theorem raiseFatal_len (c : FaultCode) (s : State) : (raiseFatal c s).len = s.len := rfl
@[simp] theorem raiseFatal_dlen (c : FaultCode) (s : State) : (raiseFatal c s).dlen = s.dlen := rfl
@[simp] theorem raiseFatal_outlen (c : FaultCode) (s : State) : (raiseFatal c s).outlen = s.outlen := rfl
@[simp] theorem raiseFatal_dig (c : FaultCode) (s : State) : (raiseFatal c s).dig = s.dig := rfl
@[simp] theorem raiseFatal_outc (c : FaultCode) (s : State) : (raiseFatal c s).outc = s.outc := rfl
@[simp] theorem raiseFatal_acc16 (c : FaultCode) (s : State) : (raiseFatal c s).acc16 = s.acc16 := rfl
@[simp] theorem raiseFatal_acc32 (c : FaultCode) (s : State) : (raiseFatal c s).acc32 = s.acc32 := rfl
@[simp] theorem raiseFatal_idx (c : FaultCode) (s : State) : (raiseFatal c s).idx = s.idx := rfl
@[simp] theorem raiseFatal_lenL (c : FaultCode) (s : State) : (raiseFatal c s).lenL = s.lenL := rfl
@[simp] theorem raiseFatal_curOp (c : FaultCode) (s : State) : (raiseFatal c s).curOp = s.curOp := rfl
@[simp] theorem raiseFatal_curAlg (c : FaultCode) (s : State) : (raiseFatal c s).curAlg = s.curAlg := rfl
@[simp] theorem raiseFatal_hreq (c : FaultCode) (s : State) : (raiseFatal c s).hreq = s.hreq := rfl
@[simp] theorem raiseFatal_hans (c : FaultCode) (s : State) : (raiseFatal c s).hans = s.hans := rfl
@[simp] theorem raiseFatal_buf (c : FaultCode) (s : State) : (raiseFatal c s).buf = s.buf := rfl
@[simp] theorem raiseFatal_cfault (c : FaultCode) (s : State) : (raiseFatal c s).cfault = s.cfault := rfl
@[simp] theorem raiseFatal_refused (c : FaultCode) (s : State) : (raiseFatal c s).refused = s.refused := rfl
@[simp] theorem raiseFatal_tainted (c : FaultCode) (s : State) : (raiseFatal c s).tainted = s.tainted := rfl
@[simp] theorem raiseFatal_freeCtr (c : FaultCode) (s : State) : (raiseFatal c s).freeCtr = s.freeCtr := rfl
@[simp] theorem raiseFatal_hostq (c : FaultCode) (s : State) : (raiseFatal c s).hostq = s.hostq := rfl
@[simp] theorem raiseFatal_reads (c : FaultCode) (s : State) : (raiseFatal c s).reads = s.reads := rfl
@[simp] theorem raiseFatal_sched (c : FaultCode) (s : State) : (raiseFatal c s).sched = s.sched := rfl

/-! ## markContractFault -/

@[simp] theorem markContractFault_seq (s : State) : (markContractFault s).seq = s.seq := rfl
@[simp] theorem markContractFault_done (s : State) : (markContractFault s).done = s.done := rfl
@[simp] theorem markContractFault_dvalid (s : State) : (markContractFault s).dvalid = s.dvalid := rfl
@[simp] theorem markContractFault_fcode (s : State) : (markContractFault s).fcode = s.fcode := rfl
@[simp] theorem markContractFault_dkind (s : State) : (markContractFault s).dkind = s.dkind := rfl
@[simp] theorem markContractFault_len (s : State) : (markContractFault s).len = s.len := rfl
@[simp] theorem markContractFault_dlen (s : State) : (markContractFault s).dlen = s.dlen := rfl
@[simp] theorem markContractFault_outlen (s : State) : (markContractFault s).outlen = s.outlen := rfl
@[simp] theorem markContractFault_dig (s : State) : (markContractFault s).dig = s.dig := rfl
@[simp] theorem markContractFault_outc (s : State) : (markContractFault s).outc = s.outc := rfl
@[simp] theorem markContractFault_acc16 (s : State) : (markContractFault s).acc16 = s.acc16 := rfl
@[simp] theorem markContractFault_acc32 (s : State) : (markContractFault s).acc32 = s.acc32 := rfl
@[simp] theorem markContractFault_idx (s : State) : (markContractFault s).idx = s.idx := rfl
@[simp] theorem markContractFault_lenL (s : State) : (markContractFault s).lenL = s.lenL := rfl
@[simp] theorem markContractFault_curOp (s : State) : (markContractFault s).curOp = s.curOp := rfl
@[simp] theorem markContractFault_curAlg (s : State) : (markContractFault s).curAlg = s.curAlg := rfl
@[simp] theorem markContractFault_hreq (s : State) : (markContractFault s).hreq = s.hreq := rfl
@[simp] theorem markContractFault_hans (s : State) : (markContractFault s).hans = s.hans := rfl
@[simp] theorem markContractFault_buf (s : State) : (markContractFault s).buf = s.buf := rfl
@[simp] theorem markContractFault_cfault (s : State) : (markContractFault s).cfault = true := rfl
@[simp] theorem markContractFault_refused (s : State) : (markContractFault s).refused = s.refused := rfl
@[simp] theorem markContractFault_tainted (s : State) : (markContractFault s).tainted = (s.tainted || isRunning s) := rfl
@[simp] theorem markContractFault_freeCtr (s : State) : (markContractFault s).freeCtr = s.freeCtr := rfl
@[simp] theorem markContractFault_hostq (s : State) : (markContractFault s).hostq = s.hostq := rfl
@[simp] theorem markContractFault_reads (s : State) : (markContractFault s).reads = s.reads := rfl
@[simp] theorem markContractFault_sched (s : State) : (markContractFault s).sched = s.sched := rfl

/-! ## markRefused -/

@[simp] theorem markRefused_seq (s : State) : (markRefused s).seq = s.seq := rfl
@[simp] theorem markRefused_done (s : State) : (markRefused s).done = s.done := rfl
@[simp] theorem markRefused_dvalid (s : State) : (markRefused s).dvalid = s.dvalid := rfl
@[simp] theorem markRefused_fcode (s : State) : (markRefused s).fcode = s.fcode := rfl
@[simp] theorem markRefused_dkind (s : State) : (markRefused s).dkind = s.dkind := rfl
@[simp] theorem markRefused_len (s : State) : (markRefused s).len = s.len := rfl
@[simp] theorem markRefused_dlen (s : State) : (markRefused s).dlen = s.dlen := rfl
@[simp] theorem markRefused_outlen (s : State) : (markRefused s).outlen = s.outlen := rfl
@[simp] theorem markRefused_dig (s : State) : (markRefused s).dig = s.dig := rfl
@[simp] theorem markRefused_outc (s : State) : (markRefused s).outc = s.outc := rfl
@[simp] theorem markRefused_acc16 (s : State) : (markRefused s).acc16 = s.acc16 := rfl
@[simp] theorem markRefused_acc32 (s : State) : (markRefused s).acc32 = s.acc32 := rfl
@[simp] theorem markRefused_idx (s : State) : (markRefused s).idx = s.idx := rfl
@[simp] theorem markRefused_lenL (s : State) : (markRefused s).lenL = s.lenL := rfl
@[simp] theorem markRefused_curOp (s : State) : (markRefused s).curOp = s.curOp := rfl
@[simp] theorem markRefused_curAlg (s : State) : (markRefused s).curAlg = s.curAlg := rfl
@[simp] theorem markRefused_hreq (s : State) : (markRefused s).hreq = s.hreq := rfl
@[simp] theorem markRefused_hans (s : State) : (markRefused s).hans = s.hans := rfl
@[simp] theorem markRefused_buf (s : State) : (markRefused s).buf = s.buf := rfl
@[simp] theorem markRefused_cfault (s : State) : (markRefused s).cfault = s.cfault := rfl
@[simp] theorem markRefused_refused (s : State) : (markRefused s).refused = true := rfl
@[simp] theorem markRefused_tainted (s : State) : (markRefused s).tainted = (s.tainted || isRunning s) := rfl
@[simp] theorem markRefused_freeCtr (s : State) : (markRefused s).freeCtr = s.freeCtr := rfl
@[simp] theorem markRefused_hostq (s : State) : (markRefused s).hostq = s.hostq := rfl
@[simp] theorem markRefused_reads (s : State) : (markRefused s).reads = s.reads := rfl
@[simp] theorem markRefused_sched (s : State) : (markRefused s).sched = s.sched := rfl

/-! ## acceptCompute -/

@[simp] theorem acceptCompute_seq (o : Operation) (a : AlgorithmKind) (s : State) : (acceptCompute o a s).seq = .running := rfl
@[simp] theorem acceptCompute_done (o : Operation) (a : AlgorithmKind) (s : State) : (acceptCompute o a s).done = s.done := rfl
@[simp] theorem acceptCompute_dvalid (o : Operation) (a : AlgorithmKind) (s : State) : (acceptCompute o a s).dvalid = false := rfl
@[simp] theorem acceptCompute_fcode (o : Operation) (a : AlgorithmKind) (s : State) : (acceptCompute o a s).fcode = s.fcode := rfl
@[simp] theorem acceptCompute_dkind (o : Operation) (a : AlgorithmKind) (s : State) : (acceptCompute o a s).dkind = .crc16 := rfl
@[simp] theorem acceptCompute_len (o : Operation) (a : AlgorithmKind) (s : State) : (acceptCompute o a s).len = s.len := rfl
@[simp] theorem acceptCompute_dlen (o : Operation) (a : AlgorithmKind) (s : State) : (acceptCompute o a s).dlen = 0 := rfl
@[simp] theorem acceptCompute_outlen (o : Operation) (a : AlgorithmKind) (s : State) : (acceptCompute o a s).outlen = 0 := rfl
@[simp] theorem acceptCompute_dig (o : Operation) (a : AlgorithmKind) (s : State) : (acceptCompute o a s).dig = Vector.replicate 32 0 := rfl
@[simp] theorem acceptCompute_outc (o : Operation) (a : AlgorithmKind) (s : State) : (acceptCompute o a s).outc = Vector.replicate 64 0 := rfl
@[simp] theorem acceptCompute_acc16 (o : Operation) (a : AlgorithmKind) (s : State) : (acceptCompute o a s).acc16 = s.acc16 := rfl
@[simp] theorem acceptCompute_acc32 (o : Operation) (a : AlgorithmKind) (s : State) : (acceptCompute o a s).acc32 = s.acc32 := rfl
@[simp] theorem acceptCompute_idx (o : Operation) (a : AlgorithmKind) (s : State) : (acceptCompute o a s).idx = 0 := rfl
@[simp] theorem acceptCompute_lenL (o : Operation) (a : AlgorithmKind) (s : State) : (acceptCompute o a s).lenL = s.len := rfl
@[simp] theorem acceptCompute_curOp (o : Operation) (a : AlgorithmKind) (s : State) : (acceptCompute o a s).curOp = o := rfl
@[simp] theorem acceptCompute_curAlg (o : Operation) (a : AlgorithmKind) (s : State) : (acceptCompute o a s).curAlg = a := rfl
@[simp] theorem acceptCompute_hreq (o : Operation) (a : AlgorithmKind) (s : State) : (acceptCompute o a s).hreq = s.hreq := rfl
@[simp] theorem acceptCompute_hans (o : Operation) (a : AlgorithmKind) (s : State) : (acceptCompute o a s).hans = s.hans := rfl
@[simp] theorem acceptCompute_buf (o : Operation) (a : AlgorithmKind) (s : State) : (acceptCompute o a s).buf = s.buf := rfl
@[simp] theorem acceptCompute_cfault (o : Operation) (a : AlgorithmKind) (s : State) : (acceptCompute o a s).cfault = s.cfault := rfl
@[simp] theorem acceptCompute_refused (o : Operation) (a : AlgorithmKind) (s : State) : (acceptCompute o a s).refused = s.refused := rfl
@[simp] theorem acceptCompute_tainted (o : Operation) (a : AlgorithmKind) (s : State) : (acceptCompute o a s).tainted = false := rfl
@[simp] theorem acceptCompute_freeCtr (o : Operation) (a : AlgorithmKind) (s : State) : (acceptCompute o a s).freeCtr = s.freeCtr := rfl
@[simp] theorem acceptCompute_hostq (o : Operation) (a : AlgorithmKind) (s : State) : (acceptCompute o a s).hostq = s.hostq := rfl
@[simp] theorem acceptCompute_reads (o : Operation) (a : AlgorithmKind) (s : State) : (acceptCompute o a s).reads = s.reads := rfl
@[simp] theorem acceptCompute_sched (o : Operation) (a : AlgorithmKind) (s : State) : (acceptCompute o a s).sched = s.sched := rfl

/-! ## completeCommand -/

@[simp] theorem completeCommand_seq (s : State) : (completeCommand s).seq = .idle := rfl
@[simp] theorem completeCommand_done (s : State) : (completeCommand s).done = true := rfl
@[simp] theorem completeCommand_dvalid (s : State) : (completeCommand s).dvalid = true := rfl
@[simp] theorem completeCommand_fcode (s : State) : (completeCommand s).fcode = s.fcode := rfl
@[simp] theorem completeCommand_dkind (s : State) : (completeCommand s).dkind = s.curAlg := rfl
@[simp] theorem completeCommand_len (s : State) : (completeCommand s).len = s.len := rfl
@[simp] theorem completeCommand_dlen (s : State) : (completeCommand s).dlen = s.dlen := rfl
@[simp] theorem completeCommand_outlen (s : State) : (completeCommand s).outlen = s.outlen := rfl
@[simp] theorem completeCommand_dig (s : State) : (completeCommand s).dig = s.dig := rfl
@[simp] theorem completeCommand_outc (s : State) : (completeCommand s).outc = s.outc := rfl
@[simp] theorem completeCommand_acc16 (s : State) : (completeCommand s).acc16 = s.acc16 := rfl
@[simp] theorem completeCommand_acc32 (s : State) : (completeCommand s).acc32 = s.acc32 := rfl
@[simp] theorem completeCommand_idx (s : State) : (completeCommand s).idx = s.idx := rfl
@[simp] theorem completeCommand_lenL (s : State) : (completeCommand s).lenL = s.lenL := rfl
@[simp] theorem completeCommand_curOp (s : State) : (completeCommand s).curOp = s.curOp := rfl
@[simp] theorem completeCommand_curAlg (s : State) : (completeCommand s).curAlg = s.curAlg := rfl
@[simp] theorem completeCommand_hreq (s : State) : (completeCommand s).hreq = s.hreq := rfl
@[simp] theorem completeCommand_hans (s : State) : (completeCommand s).hans = s.hans := rfl
@[simp] theorem completeCommand_buf (s : State) : (completeCommand s).buf = s.buf := rfl
@[simp] theorem completeCommand_cfault (s : State) : (completeCommand s).cfault = s.cfault := rfl
@[simp] theorem completeCommand_refused (s : State) : (completeCommand s).refused = s.refused := rfl
@[simp] theorem completeCommand_tainted (s : State) : (completeCommand s).tainted = false := rfl
@[simp] theorem completeCommand_freeCtr (s : State) : (completeCommand s).freeCtr = if s.tainted then s.freeCtr + 96 else s.freeCtr := rfl
@[simp] theorem completeCommand_hostq (s : State) : (completeCommand s).hostq = s.hostq := rfl
@[simp] theorem completeCommand_reads (s : State) : (completeCommand s).reads = s.reads := rfl
@[simp] theorem completeCommand_sched (s : State) : (completeCommand s).sched = s.sched := rfl

/-! ## observeReg -/

@[simp] theorem observeReg_seq (o : Nat) (s : State) : (observeReg o s).seq = s.seq := rfl
@[simp] theorem observeReg_done (o : Nat) (s : State) : (observeReg o s).done = s.done := rfl
@[simp] theorem observeReg_dvalid (o : Nat) (s : State) : (observeReg o s).dvalid = s.dvalid := rfl
@[simp] theorem observeReg_fcode (o : Nat) (s : State) : (observeReg o s).fcode = s.fcode := rfl
@[simp] theorem observeReg_dkind (o : Nat) (s : State) : (observeReg o s).dkind = s.dkind := rfl
@[simp] theorem observeReg_len (o : Nat) (s : State) : (observeReg o s).len = s.len := rfl
@[simp] theorem observeReg_dlen (o : Nat) (s : State) : (observeReg o s).dlen = s.dlen := rfl
@[simp] theorem observeReg_outlen (o : Nat) (s : State) : (observeReg o s).outlen = s.outlen := rfl
@[simp] theorem observeReg_dig (o : Nat) (s : State) : (observeReg o s).dig = s.dig := rfl
@[simp] theorem observeReg_outc (o : Nat) (s : State) : (observeReg o s).outc = s.outc := rfl
@[simp] theorem observeReg_acc16 (o : Nat) (s : State) : (observeReg o s).acc16 = s.acc16 := rfl
@[simp] theorem observeReg_acc32 (o : Nat) (s : State) : (observeReg o s).acc32 = s.acc32 := rfl
@[simp] theorem observeReg_idx (o : Nat) (s : State) : (observeReg o s).idx = s.idx := rfl
@[simp] theorem observeReg_lenL (o : Nat) (s : State) : (observeReg o s).lenL = s.lenL := rfl
@[simp] theorem observeReg_curOp (o : Nat) (s : State) : (observeReg o s).curOp = s.curOp := rfl
@[simp] theorem observeReg_curAlg (o : Nat) (s : State) : (observeReg o s).curAlg = s.curAlg := rfl
@[simp] theorem observeReg_hreq (o : Nat) (s : State) : (observeReg o s).hreq = s.hreq := rfl
@[simp] theorem observeReg_hans (o : Nat) (s : State) : (observeReg o s).hans = s.hans := rfl
@[simp] theorem observeReg_buf (o : Nat) (s : State) : (observeReg o s).buf = s.buf := rfl
@[simp] theorem observeReg_cfault (o : Nat) (s : State) : (observeReg o s).cfault = s.cfault := rfl
@[simp] theorem observeReg_refused (o : Nat) (s : State) : (observeReg o s).refused = s.refused := rfl
@[simp] theorem observeReg_tainted (o : Nat) (s : State) : (observeReg o s).tainted = s.tainted := rfl
@[simp] theorem observeReg_freeCtr (o : Nat) (s : State) : (observeReg o s).freeCtr = s.freeCtr := rfl
@[simp] theorem observeReg_hostq (o : Nat) (s : State) : (observeReg o s).hostq = s.hostq := rfl
@[simp] theorem observeReg_reads (o : Nat) (s : State) : (observeReg o s).reads = .reg o (regRead o s) :: s.reads := rfl
@[simp] theorem observeReg_sched (o : Nat) (s : State) : (observeReg o s).sched = s.sched := rfl

/-! ## pushReads -/

@[simp] theorem pushReads_seq (o : Nat) (n : Word) (s : State) : (pushReads o n s).seq = s.seq := rfl
@[simp] theorem pushReads_done (o : Nat) (n : Word) (s : State) : (pushReads o n s).done = s.done := rfl
@[simp] theorem pushReads_dvalid (o : Nat) (n : Word) (s : State) : (pushReads o n s).dvalid = s.dvalid := rfl
@[simp] theorem pushReads_fcode (o : Nat) (n : Word) (s : State) : (pushReads o n s).fcode = s.fcode := rfl
@[simp] theorem pushReads_dkind (o : Nat) (n : Word) (s : State) : (pushReads o n s).dkind = s.dkind := rfl
@[simp] theorem pushReads_len (o : Nat) (n : Word) (s : State) : (pushReads o n s).len = s.len := rfl
@[simp] theorem pushReads_dlen (o : Nat) (n : Word) (s : State) : (pushReads o n s).dlen = s.dlen := rfl
@[simp] theorem pushReads_outlen (o : Nat) (n : Word) (s : State) : (pushReads o n s).outlen = s.outlen := rfl
@[simp] theorem pushReads_dig (o : Nat) (n : Word) (s : State) : (pushReads o n s).dig = s.dig := rfl
@[simp] theorem pushReads_outc (o : Nat) (n : Word) (s : State) : (pushReads o n s).outc = s.outc := rfl
@[simp] theorem pushReads_acc16 (o : Nat) (n : Word) (s : State) : (pushReads o n s).acc16 = s.acc16 := rfl
@[simp] theorem pushReads_acc32 (o : Nat) (n : Word) (s : State) : (pushReads o n s).acc32 = s.acc32 := rfl
@[simp] theorem pushReads_idx (o : Nat) (n : Word) (s : State) : (pushReads o n s).idx = s.idx := rfl
@[simp] theorem pushReads_lenL (o : Nat) (n : Word) (s : State) : (pushReads o n s).lenL = s.lenL := rfl
@[simp] theorem pushReads_curOp (o : Nat) (n : Word) (s : State) : (pushReads o n s).curOp = s.curOp := rfl
@[simp] theorem pushReads_curAlg (o : Nat) (n : Word) (s : State) : (pushReads o n s).curAlg = s.curAlg := rfl
@[simp] theorem pushReads_hreq (o : Nat) (n : Word) (s : State) : (pushReads o n s).hreq = s.hreq := rfl
@[simp] theorem pushReads_hans (o : Nat) (n : Word) (s : State) : (pushReads o n s).hans = s.hans := rfl
@[simp] theorem pushReads_buf (o : Nat) (n : Word) (s : State) : (pushReads o n s).buf = s.buf := rfl
@[simp] theorem pushReads_cfault (o : Nat) (n : Word) (s : State) : (pushReads o n s).cfault = s.cfault := rfl
@[simp] theorem pushReads_refused (o : Nat) (n : Word) (s : State) : (pushReads o n s).refused = s.refused := rfl
@[simp] theorem pushReads_tainted (o : Nat) (n : Word) (s : State) : (pushReads o n s).tainted = s.tainted := rfl
@[simp] theorem pushReads_freeCtr (o : Nat) (n : Word) (s : State) : (pushReads o n s).freeCtr = s.freeCtr := rfl
@[simp] theorem pushReads_hostq (o : Nat) (n : Word) (s : State) : (pushReads o n s).hostq = windowReads o ((n.toNat + 3) / 4) ++ s.hostq := rfl
@[simp] theorem pushReads_reads (o : Nat) (n : Word) (s : State) : (pushReads o n s).reads = s.reads := rfl
@[simp] theorem pushReads_sched (o : Nat) (n : Word) (s : State) : (pushReads o n s).sched = s.sched := rfl

/-! ## takeTurn -/

@[simp] theorem takeTurn_seq (s : State) : (takeTurn s).seq = s.seq := rfl
@[simp] theorem takeTurn_done (s : State) : (takeTurn s).done = s.done := rfl
@[simp] theorem takeTurn_dvalid (s : State) : (takeTurn s).dvalid = s.dvalid := rfl
@[simp] theorem takeTurn_fcode (s : State) : (takeTurn s).fcode = s.fcode := rfl
@[simp] theorem takeTurn_dkind (s : State) : (takeTurn s).dkind = s.dkind := rfl
@[simp] theorem takeTurn_len (s : State) : (takeTurn s).len = s.len := rfl
@[simp] theorem takeTurn_dlen (s : State) : (takeTurn s).dlen = s.dlen := rfl
@[simp] theorem takeTurn_outlen (s : State) : (takeTurn s).outlen = s.outlen := rfl
@[simp] theorem takeTurn_dig (s : State) : (takeTurn s).dig = s.dig := rfl
@[simp] theorem takeTurn_outc (s : State) : (takeTurn s).outc = s.outc := rfl
@[simp] theorem takeTurn_acc16 (s : State) : (takeTurn s).acc16 = s.acc16 := rfl
@[simp] theorem takeTurn_acc32 (s : State) : (takeTurn s).acc32 = s.acc32 := rfl
@[simp] theorem takeTurn_idx (s : State) : (takeTurn s).idx = s.idx := rfl
@[simp] theorem takeTurn_lenL (s : State) : (takeTurn s).lenL = s.lenL := rfl
@[simp] theorem takeTurn_curOp (s : State) : (takeTurn s).curOp = s.curOp := rfl
@[simp] theorem takeTurn_curAlg (s : State) : (takeTurn s).curAlg = s.curAlg := rfl
@[simp] theorem takeTurn_hreq (s : State) : (takeTurn s).hreq = s.hreq := rfl
@[simp] theorem takeTurn_hans (s : State) : (takeTurn s).hans = s.hans := rfl
@[simp] theorem takeTurn_buf (s : State) : (takeTurn s).buf = s.buf := rfl
@[simp] theorem takeTurn_cfault (s : State) : (takeTurn s).cfault = s.cfault := rfl
@[simp] theorem takeTurn_refused (s : State) : (takeTurn s).refused = s.refused := rfl
@[simp] theorem takeTurn_tainted (s : State) : (takeTurn s).tainted = s.tainted := rfl
@[simp] theorem takeTurn_freeCtr (s : State) : (takeTurn s).freeCtr = s.freeCtr := rfl
@[simp] theorem takeTurn_hostq (s : State) : (takeTurn s).hostq = s.hostq := rfl
@[simp] theorem takeTurn_reads (s : State) : (takeTurn s).reads = s.reads := rfl
@[simp] theorem takeTurn_sched (s : State) : (takeTurn s).sched = s.sched.tail := rfl

/-! ## crc16ByteStep -/

@[simp] theorem crc16ByteStep_seq (s : State) : (crc16ByteStep s).seq = s.seq := rfl
@[simp] theorem crc16ByteStep_done (s : State) : (crc16ByteStep s).done = s.done := rfl
@[simp] theorem crc16ByteStep_dvalid (s : State) : (crc16ByteStep s).dvalid = s.dvalid := rfl
@[simp] theorem crc16ByteStep_fcode (s : State) : (crc16ByteStep s).fcode = s.fcode := rfl
@[simp] theorem crc16ByteStep_dkind (s : State) : (crc16ByteStep s).dkind = s.dkind := rfl
@[simp] theorem crc16ByteStep_len (s : State) : (crc16ByteStep s).len = s.len := rfl
@[simp] theorem crc16ByteStep_dlen (s : State) : (crc16ByteStep s).dlen = s.dlen := rfl
@[simp] theorem crc16ByteStep_outlen (s : State) : (crc16ByteStep s).outlen = s.outlen := rfl
@[simp] theorem crc16ByteStep_dig (s : State) : (crc16ByteStep s).dig = s.dig := rfl
@[simp] theorem crc16ByteStep_outc (s : State) : (crc16ByteStep s).outc = s.outc := rfl
@[simp] theorem crc16ByteStep_acc16 (s : State) : (crc16ByteStep s).acc16 = crc16Step s.acc16 (nextBufByte s) := rfl
@[simp] theorem crc16ByteStep_acc32 (s : State) : (crc16ByteStep s).acc32 = s.acc32 := rfl
@[simp] theorem crc16ByteStep_idx (s : State) : (crc16ByteStep s).idx = s.idx + 1 := rfl
@[simp] theorem crc16ByteStep_lenL (s : State) : (crc16ByteStep s).lenL = s.lenL := rfl
@[simp] theorem crc16ByteStep_curOp (s : State) : (crc16ByteStep s).curOp = s.curOp := rfl
@[simp] theorem crc16ByteStep_curAlg (s : State) : (crc16ByteStep s).curAlg = s.curAlg := rfl
@[simp] theorem crc16ByteStep_hreq (s : State) : (crc16ByteStep s).hreq = s.hreq := rfl
@[simp] theorem crc16ByteStep_hans (s : State) : (crc16ByteStep s).hans = s.hans := rfl
@[simp] theorem crc16ByteStep_buf (s : State) : (crc16ByteStep s).buf = s.buf := rfl
@[simp] theorem crc16ByteStep_cfault (s : State) : (crc16ByteStep s).cfault = s.cfault := rfl
@[simp] theorem crc16ByteStep_refused (s : State) : (crc16ByteStep s).refused = s.refused := rfl
@[simp] theorem crc16ByteStep_tainted (s : State) : (crc16ByteStep s).tainted = s.tainted := rfl
@[simp] theorem crc16ByteStep_freeCtr (s : State) : (crc16ByteStep s).freeCtr = s.freeCtr := rfl
@[simp] theorem crc16ByteStep_hostq (s : State) : (crc16ByteStep s).hostq = s.hostq := rfl
@[simp] theorem crc16ByteStep_reads (s : State) : (crc16ByteStep s).reads = s.reads := rfl
@[simp] theorem crc16ByteStep_sched (s : State) : (crc16ByteStep s).sched = s.sched := rfl

/-! ## crc32ByteStep -/

@[simp] theorem crc32ByteStep_seq (s : State) : (crc32ByteStep s).seq = s.seq := rfl
@[simp] theorem crc32ByteStep_done (s : State) : (crc32ByteStep s).done = s.done := rfl
@[simp] theorem crc32ByteStep_dvalid (s : State) : (crc32ByteStep s).dvalid = s.dvalid := rfl
@[simp] theorem crc32ByteStep_fcode (s : State) : (crc32ByteStep s).fcode = s.fcode := rfl
@[simp] theorem crc32ByteStep_dkind (s : State) : (crc32ByteStep s).dkind = s.dkind := rfl
@[simp] theorem crc32ByteStep_len (s : State) : (crc32ByteStep s).len = s.len := rfl
@[simp] theorem crc32ByteStep_dlen (s : State) : (crc32ByteStep s).dlen = s.dlen := rfl
@[simp] theorem crc32ByteStep_outlen (s : State) : (crc32ByteStep s).outlen = s.outlen := rfl
@[simp] theorem crc32ByteStep_dig (s : State) : (crc32ByteStep s).dig = s.dig := rfl
@[simp] theorem crc32ByteStep_outc (s : State) : (crc32ByteStep s).outc = s.outc := rfl
@[simp] theorem crc32ByteStep_acc16 (s : State) : (crc32ByteStep s).acc16 = s.acc16 := rfl
@[simp] theorem crc32ByteStep_acc32 (s : State) : (crc32ByteStep s).acc32 = crc32Step s.acc32 (nextBufByte s) := rfl
@[simp] theorem crc32ByteStep_idx (s : State) : (crc32ByteStep s).idx = s.idx + 1 := rfl
@[simp] theorem crc32ByteStep_lenL (s : State) : (crc32ByteStep s).lenL = s.lenL := rfl
@[simp] theorem crc32ByteStep_curOp (s : State) : (crc32ByteStep s).curOp = s.curOp := rfl
@[simp] theorem crc32ByteStep_curAlg (s : State) : (crc32ByteStep s).curAlg = s.curAlg := rfl
@[simp] theorem crc32ByteStep_hreq (s : State) : (crc32ByteStep s).hreq = s.hreq := rfl
@[simp] theorem crc32ByteStep_hans (s : State) : (crc32ByteStep s).hans = s.hans := rfl
@[simp] theorem crc32ByteStep_buf (s : State) : (crc32ByteStep s).buf = s.buf := rfl
@[simp] theorem crc32ByteStep_cfault (s : State) : (crc32ByteStep s).cfault = s.cfault := rfl
@[simp] theorem crc32ByteStep_refused (s : State) : (crc32ByteStep s).refused = s.refused := rfl
@[simp] theorem crc32ByteStep_tainted (s : State) : (crc32ByteStep s).tainted = s.tainted := rfl
@[simp] theorem crc32ByteStep_freeCtr (s : State) : (crc32ByteStep s).freeCtr = s.freeCtr := rfl
@[simp] theorem crc32ByteStep_hostq (s : State) : (crc32ByteStep s).hostq = s.hostq := rfl
@[simp] theorem crc32ByteStep_reads (s : State) : (crc32ByteStep s).reads = s.reads := rfl
@[simp] theorem crc32ByteStep_sched (s : State) : (crc32ByteStep s).sched = s.sched := rfl

/-! ## platformReset -/

@[simp] theorem platformReset_seq (s : State) : (platformReset s).seq = State.reset.seq := rfl
@[simp] theorem platformReset_done (s : State) : (platformReset s).done = State.reset.done := rfl
@[simp] theorem platformReset_dvalid (s : State) : (platformReset s).dvalid = State.reset.dvalid := rfl
@[simp] theorem platformReset_fcode (s : State) : (platformReset s).fcode = State.reset.fcode := rfl
@[simp] theorem platformReset_dkind (s : State) : (platformReset s).dkind = State.reset.dkind := rfl
@[simp] theorem platformReset_len (s : State) : (platformReset s).len = State.reset.len := rfl
@[simp] theorem platformReset_dlen (s : State) : (platformReset s).dlen = State.reset.dlen := rfl
@[simp] theorem platformReset_outlen (s : State) : (platformReset s).outlen = State.reset.outlen := rfl
@[simp] theorem platformReset_dig (s : State) : (platformReset s).dig = State.reset.dig := rfl
@[simp] theorem platformReset_outc (s : State) : (platformReset s).outc = State.reset.outc := rfl
@[simp] theorem platformReset_acc16 (s : State) : (platformReset s).acc16 = State.reset.acc16 := rfl
@[simp] theorem platformReset_acc32 (s : State) : (platformReset s).acc32 = State.reset.acc32 := rfl
@[simp] theorem platformReset_idx (s : State) : (platformReset s).idx = State.reset.idx := rfl
@[simp] theorem platformReset_lenL (s : State) : (platformReset s).lenL = State.reset.lenL := rfl
@[simp] theorem platformReset_curOp (s : State) : (platformReset s).curOp = State.reset.curOp := rfl
@[simp] theorem platformReset_curAlg (s : State) : (platformReset s).curAlg = State.reset.curAlg := rfl
@[simp] theorem platformReset_hreq (s : State) : (platformReset s).hreq = State.reset.hreq := rfl
@[simp] theorem platformReset_hans (s : State) : (platformReset s).hans = State.reset.hans := rfl
@[simp] theorem platformReset_buf (s : State) : (platformReset s).buf = s.buf := rfl
@[simp] theorem platformReset_cfault (s : State) : (platformReset s).cfault = s.cfault := rfl
@[simp] theorem platformReset_refused (s : State) : (platformReset s).refused = s.refused := rfl
@[simp] theorem platformReset_tainted (s : State) : (platformReset s).tainted = State.reset.tainted := rfl
@[simp] theorem platformReset_freeCtr (s : State) : (platformReset s).freeCtr = s.freeCtr := rfl
@[simp] theorem platformReset_hostq (s : State) : (platformReset s).hostq = s.hostq := rfl
@[simp] theorem platformReset_reads (s : State) : (platformReset s).reads = s.reads := rfl
@[simp] theorem platformReset_sched (s : State) : (platformReset s).sched = s.sched := rfl

end Sys2Proof.Machine
end

