-- ==== Sys2Proof/Laws/Steps.lean ====
section
/-! SUPPORT. What each shared operation can do, said once: the commands as accepts, the finish step field by field, and the inversions of takeWord, the host's, the engine's and the whole step. -/

namespace Sys2Proof.Machine

@[simp] theorem isRunning_iff (s : State) : isRunning s = true ↔ s.seq = .running := by
  cases h : s.seq <;> simp [isRunning, h]

@[simp] theorem isRunning_false_iff (s : State) : isRunning s = false ↔ s.seq ≠ .running := by
  cases h : s.seq <;> simp [isRunning, h]

theorem AlgorithmKind.code_injective {a b : AlgorithmKind} : a.code = b.code ↔ a = b := by
  cases a <;> cases b <;> simp [AlgorithmKind.code]

/-! ## Commands as accepts -/

/-- The accept of RUN and COMPUTE by algorithm (40_command_model R105). -/
def acceptOf (op : Operation) : AlgorithmKind → State → State
  | .crc16 => acceptCrc16 op
  | .crc32 => acceptCrc32 op
  | .md5 => acceptHash op .md5
  | .sha1 => acceptHash op .sha1
  | .sha256 => acceptHash op .sha256

theorem instrOf_operation_algorithm (i : Instr) : instrOf i.operation i.algorithm = i := by
  cases i <;> rfl

@[simp] theorem operation_instrOf (op : Operation) (alg : AlgorithmKind) :
    (instrOf op alg).operation = op := by
  cases op <;> cases alg <;> rfl

@[simp] theorem algorithm_instrOf (op : Operation) (alg : AlgorithmKind) :
    (instrOf op alg).algorithm = alg := by
  cases op <;> cases alg <;> rfl

/-- RUN and COMPUTE are their accept. -/
theorem exec_accept (op : Operation) (alg : AlgorithmKind) (s : State) (h : op ≠ .format) :
    exec (instrOf op alg) s = takeCommand (acceptOf op alg) s := by
  cases op <;> cases alg <;> first | rfl | exact absurd rfl h

/-- FORMAT is its accept. -/
theorem exec_format (alg : AlgorithmKind) (s : State) :
    exec (instrOf .format alg) s =
      takeCommand (acceptFormat alg fun t => fmtDigest (digestInDig alg t)) s := by
  cases alg <;> rfl

theorem acceptOf_eq (op : Operation) (alg : AlgorithmKind) (s : State) :
    acceptOf op alg s = { acceptCompute op alg s with
      acc16 := if alg = .crc16 then 0x0000 else s.acc16
      acc32 := if alg = .crc32 then 0xFFFFFFFF else s.acc32
      hreq := if isHash alg then .pending else s.hreq } := by
  cases alg <;> rfl

theorem takeCommand_idle (f : State → State) (s : State) (h : s.seq = .idle) :
    takeCommand f s = .next (f { s with done := false }) := by
  simp [takeCommand, h]

theorem takeCommand_not_idle (f : State → State) (s : State) (h : s.seq ≠ .idle) :
    takeCommand f s = .next s := by
  cases hs : s.seq <;> simp_all [takeCommand]

/-- `acceptFormat` with the digest of its kind held. -/
theorem acceptFormat_held (alg : AlgorithmKind) (f : State → List Byte) (s : State)
    (hv : s.dvalid = true) (hk : s.dkind = alg) :
    acceptFormat alg f s = { writeOut (f s) (clearOut s) with done := true } := by
  simp [acceptFormat, hv, hk]

/-- `acceptFormat` in one of its three ways. -/
theorem acceptFormat_cases (alg : AlgorithmKind) (f : State → List Byte) (s : State) :
    (s.dvalid = false ∧ acceptFormat alg f s = raiseFatal .digestNotValid s) ∨
    (s.dvalid = true ∧ s.dkind ≠ alg ∧ acceptFormat alg f s = raiseFatal .digestKindMismatch s) ∨
    (s.dvalid = true ∧ s.dkind = alg ∧
      acceptFormat alg f s = { writeOut (f s) (clearOut s) with done := true }) := by
  by_cases hv : s.dvalid = true
  · by_cases hk : s.dkind = alg
    · exact .inr (.inr ⟨hv, hk, acceptFormat_held alg f s hv hk⟩)
    · exact .inr (.inl ⟨hv, hk, by simp [acceptFormat, hv, AlgorithmKind.code_injective, hk]⟩)
  · have hv : s.dvalid = false := by simpa using hv
    exact .inl ⟨hv, by simp [acceptFormat, hv]⟩

/-- A word taken in IDLE does one of three things. -/
theorem takeWord_idle_cases {w : Word} {s t : State} (hs : s.seq = .idle)
    (h : takeWord w s = .next t) :
    (∃ c, c ≠ FaultCode.none ∧ t = raiseFatal c { s with done := false }) ∨
    (∃ op alg, op ≠ .format ∧ decode w = .ok (instrOf op alg) ∧
      t = acceptOf op alg { s with done := false }) ∨
    (∃ alg, s.dvalid = true ∧ s.dkind = alg ∧ decode w = .ok (instrOf .format alg) ∧
      t = { writeOut (fmtDigest (digestInDig alg s)) (clearOut { s with done := false }) with
            done := true }) := by
  unfold takeWord at h
  cases hd : decode w with
  | error e =>
    simp only [hd, takeCommand_idle _ _ hs] at h
    cases h
    exact .inl ⟨illegalCode e, by cases e <;> simp [illegalCode], rfl⟩
  | ok i =>
    simp only [hd] at h
    have hi := instrOf_operation_algorithm i
    rw [← hi] at h
    cases ho : i.operation with
    | format =>
      rw [ho] at h hi
      rw [exec_format, takeCommand_idle _ _ hs] at h
      cases h
      rcases acceptFormat_cases i.algorithm (fun t => fmtDigest (digestInDig i.algorithm t))
          { s with done := false } with ⟨_, he⟩ | ⟨_, _, he⟩ | ⟨hv, hk, he⟩
      · exact .inl ⟨_, by simp, he⟩
      · exact .inl ⟨_, by simp, he⟩
      · refine .inr (.inr ⟨_, hv, hk, by rw [hi], ?_⟩)
        rw [he]
        cases i.algorithm <;> rfl
    | run =>
      rw [ho] at h hi
      rw [exec_accept _ _ _ (by simp), takeCommand_idle _ _ hs] at h
      cases h
      exact .inr (.inl ⟨_, _, by simp, by rw [hi], rfl⟩)
    | compute =>
      rw [ho] at h hi
      rw [exec_accept _ _ _ (by simp), takeCommand_idle _ _ hs] at h
      cases h
      exact .inr (.inl ⟨_, _, by simp, by rw [hi], rfl⟩)

/-- A word always gives a next state; outside IDLE the same one. -/
theorem takeWord_not_idle (w : Word) (s : State) (h : s.seq ≠ .idle) : takeWord w s = .next s := by
  unfold takeWord
  cases decode w with
  | error e => exact takeCommand_not_idle _ _ h
  | ok i =>
    show exec i s = _
    rw [← instrOf_operation_algorithm i]
    cases i.operation with
    | format => rw [exec_format]; exact takeCommand_not_idle _ _ h
    | run => rw [exec_accept _ _ _ (by simp)]; exact takeCommand_not_idle _ _ h
    | compute => rw [exec_accept _ _ _ (by simp)]; exact takeCommand_not_idle _ _ h

theorem takeWord_next (w : Word) (s : State) : ∃ t, takeWord w s = .next t := by
  by_cases h : s.seq = .idle
  · unfold takeWord
    cases decode w with
    | error e => exact ⟨_, takeCommand_idle _ _ h⟩
    | ok i =>
      show ∃ t, exec i s = _
      rw [← instrOf_operation_algorithm i]
      cases i.operation with
      | format => rw [exec_format]; exact ⟨_, takeCommand_idle _ _ h⟩
      | run => rw [exec_accept _ _ _ (by simp)]; exact ⟨_, takeCommand_idle _ _ h⟩
      | compute => rw [exec_accept _ _ _ (by simp)]; exact ⟨_, takeCommand_idle _ _ h⟩
  · exact ⟨s, takeWord_not_idle w s h⟩

/-! ## The finish step, field by field -/

@[simp] theorem finish_seq (d : Digest) (s : State) : (finish d s).seq = .idle := by
  cases h : s.curOp <;> simp [finish, h]
@[simp] theorem finish_done (d : Digest) (s : State) : (finish d s).done = true := by
  cases h : s.curOp <;> simp [finish, h]
@[simp] theorem finish_dvalid (d : Digest) (s : State) : (finish d s).dvalid = true := by
  cases h : s.curOp <;> simp [finish, h]
@[simp] theorem finish_fcode (d : Digest) (s : State) : (finish d s).fcode = s.fcode := by
  cases h : s.curOp <;> simp [finish, h]
@[simp] theorem finish_dkind (d : Digest) (s : State) : (finish d s).dkind = s.curAlg := by
  cases h : s.curOp <;> simp [finish, h]
@[simp] theorem finish_len (d : Digest) (s : State) : (finish d s).len = s.len := by
  cases h : s.curOp <;> simp [finish, h]
@[simp] theorem finish_dlen (d : Digest) (s : State) :
    (finish d s).dlen = BitVec.ofNat 32 (digestBytes d).length := by
  cases h : s.curOp <;> simp [finish, h]
@[simp] theorem finish_dig (d : Digest) (s : State) :
    (finish d s).dig = writeFront s.dig (resultBytes s s.freeCtr (digestBytes d)) := by
  cases h : s.curOp <;> simp [finish, h]
theorem finish_outlen_run (d : Digest) (s : State) (h : s.curOp = .run) :
    (finish d s).outlen = BitVec.ofNat 32 (fmtDigest d).length := by
  simp [finish, h]
theorem finish_outlen_compute (d : Digest) (s : State) (h : s.curOp ≠ .run) :
    (finish d s).outlen = s.outlen := by
  cases h' : s.curOp <;> simp_all [finish]
theorem finish_outc_run (d : Digest) (s : State) (h : s.curOp = .run) :
    (finish d s).outc = writeFront s.outc (resultBytes s (s.freeCtr + 32) (fmtDigest d)) := by
  simp [finish, h]
theorem finish_outc_compute (d : Digest) (s : State) (h : s.curOp ≠ .run) :
    (finish d s).outc = s.outc := by
  cases h' : s.curOp <;> simp_all [finish]
@[simp] theorem finish_acc16 (d : Digest) (s : State) : (finish d s).acc16 = s.acc16 := by
  cases h : s.curOp <;> simp [finish, h]
@[simp] theorem finish_acc32 (d : Digest) (s : State) : (finish d s).acc32 = s.acc32 := by
  cases h : s.curOp <;> simp [finish, h]
@[simp] theorem finish_idx (d : Digest) (s : State) : (finish d s).idx = s.idx := by
  cases h : s.curOp <;> simp [finish, h]
@[simp] theorem finish_lenL (d : Digest) (s : State) : (finish d s).lenL = s.lenL := by
  cases h : s.curOp <;> simp [finish, h]
@[simp] theorem finish_curOp (d : Digest) (s : State) : (finish d s).curOp = s.curOp := by
  cases h : s.curOp <;> simp [finish, h]
@[simp] theorem finish_curAlg (d : Digest) (s : State) : (finish d s).curAlg = s.curAlg := by
  cases h : s.curOp <;> simp [finish, h]
@[simp] theorem finish_hreq (d : Digest) (s : State) : (finish d s).hreq = s.hreq := by
  cases h : s.curOp <;> simp [finish, h]
@[simp] theorem finish_hans (d : Digest) (s : State) : (finish d s).hans = s.hans := by
  cases h : s.curOp <;> simp [finish, h]
@[simp] theorem finish_buf (d : Digest) (s : State) : (finish d s).buf = s.buf := by
  cases h : s.curOp <;> simp [finish, h]
@[simp] theorem finish_cfault (d : Digest) (s : State) : (finish d s).cfault = s.cfault := by
  cases h : s.curOp <;> simp [finish, h]
@[simp] theorem finish_refused (d : Digest) (s : State) : (finish d s).refused = s.refused := by
  cases h : s.curOp <;> simp [finish, h]
@[simp] theorem finish_tainted (d : Digest) (s : State) : (finish d s).tainted = false := by
  cases h : s.curOp <;> simp [finish, h]
@[simp] theorem finish_hostq (d : Digest) (s : State) : (finish d s).hostq = s.hostq := by
  cases h : s.curOp <;> simp [finish, h]
@[simp] theorem finish_reads (d : Digest) (s : State) : (finish d s).reads = s.reads := by
  cases h : s.curOp <;> simp [finish, h]
@[simp] theorem finish_sched (d : Digest) (s : State) : (finish d s).sched = s.sched := by
  cases h : s.curOp <;> simp [finish, h]

/-! ## Inversions -/

/-- What the engine's step can be, guards included (40_command_model R107). -/
theorem engineStep_cases (s : State) :
    engineStep s = s ∨
    (s.seq = .running ∧ s.curAlg = .crc16 ∧ s.idx < s.lenL ∧ engineStep s = crc16ByteStep s) ∨
    (s.seq = .running ∧ s.curAlg = .crc32 ∧ s.idx < s.lenL ∧ engineStep s = crc32ByteStep s) ∨
    (s.seq = .running ∧ s.curAlg = .crc16 ∧ s.idx = s.lenL ∧ engineStep s = crc16Finish s) ∨
    (s.seq = .running ∧ s.curAlg = .crc32 ∧ s.idx = s.lenL ∧ engineStep s = crc32Finish s) ∨
    (s.seq = .running ∧ isHash s.curAlg = true ∧ s.hreq = .answered ∧
      engineStep s = hashFinish s) := by
  cases hs : s.seq with
  | idle => exact .inl (by simp [engineStep, hs])
  | halted => exact .inl (by simp [engineStep, hs])
  | running =>
    cases ha : s.curAlg with
    | crc16 =>
      by_cases h1 : s.idx < s.lenL
      · simp [engineStep, hs, ha, h1]
      · by_cases h2 : s.idx = s.lenL
        · simp [engineStep, hs, ha, h2]
        · exact .inl (by simp [engineStep, hs, ha, h1, h2])
    | crc32 =>
      by_cases h1 : s.idx < s.lenL
      · simp [engineStep, hs, ha, h1]
      · by_cases h2 : s.idx = s.lenL
        · simp [engineStep, hs, ha, h2]
        · exact .inl (by simp [engineStep, hs, ha, h1, h2])
    | md5 =>
      by_cases h : s.hreq = .answered <;> simp [engineStep, hashEngineStep, hs, ha, h, isHash]
    | sha1 =>
      by_cases h : s.hreq = .answered <;> simp [engineStep, hashEngineStep, hs, ha, h, isHash]
    | sha256 =>
      by_cases h : s.hreq = .answered <;> simp [engineStep, hashEngineStep, hs, ha, h, isHash]

/-- What the HashUnit's step can be (43_hash_delegation R171). -/
theorem hashUnitStep_cases (s : State) :
    hashUnitStep s = s ∨
    ∃ answer, s.hreq = .pending ∧ isHash s.curAlg = true ∧
      hashOf s.curAlg (bufContents s) = some answer ∧
      hashUnitStep s = { s with hans := answer, hreq := .answered } := by
  cases hq : s.hreq with
  | none => exact .inl (by simp [hashUnitStep, hq])
  | answered => exact .inl (by simp [hashUnitStep, hq])
  | pending =>
    cases ha : s.curAlg <;> simp [hashUnitStep, hq, ha, hashOf, isHash]

/-- What the host's step can be: a step of the host's own fields and LEN, a BUF write, a refused
access, or a command taken. -/
theorem hostStep_cases {s t : State} (h : hostStep s = .next t) :
    t = { s with len := t.len, hostq := t.hostq, reads := t.reads } ∨
    (∃ a v rest, s.hostq = .bufWrite a v :: rest ∧ a < Config.bufSize ∧
      t = if isRunning s then markContractFault { s with hostq := rest, buf := s.buf.write a v }
          else { s with hostq := rest, buf := s.buf.write a v }) ∨
    (∃ rest, t = markRefused { s with hostq := rest }) ∨
    (∃ w rest, s.hostq = .regWrite 0x00 4 w :: rest ∧ s.seq ≠ .running ∧
      takeWord w { s with hostq := rest } = .next t) := by
  unfold hostStep at h
  cases hq : s.hostq with
  | nil =>
    simp only [hq] at h
    cases h
    exact .inl rfl
  | cons op rest =>
    simp only [hq] at h
    cases op with
    | bufWrite a v =>
      simp only [hostBufWrite] at h
      by_cases ha : a < Config.bufSize
      · rw [if_pos ha] at h
        cases h
        exact .inr (.inl ⟨a, v, rest, rfl, ha, rfl⟩)
      · rw [if_neg ha] at h
        cases h
    | bufRead a =>
      simp only [hostBufRead] at h
      by_cases ha : a < Config.bufSize
      · rw [if_pos ha] at h
        cases h
        exact .inl rfl
      · rw [if_neg ha] at h
        cases h
    | regWrite offset width v =>
      simp only [hostRegWrite] at h
      by_cases had : regAdmitted offset width = false
      · rw [if_pos had] at h
        cases h
        exact .inr (.inr (.inl ⟨rest, rfl⟩))
      · rw [if_neg had] at h
        by_cases ho : offset = offCmd
        · rw [if_pos ho] at h
          by_cases hr : isRunning s = true
          · rw [if_pos hr] at h
            cases h
            exact .inl rfl
          · rw [if_neg hr] at h
            have hw : width = 4 := by
              simp only [regAdmitted, Bool.not_eq_false, Bool.and_eq_true, beq_iff_eq] at had
              exact had.1.1
            subst ho hw
            exact .inr (.inr (.inr ⟨v, rest, rfl, by simpa using hr, h⟩))
        · rw [if_neg ho] at h
          cases h
          unfold regWrite
          split <;> exact .inl rfl
    | regRead offset width =>
      simp only [hostRegRead] at h
      by_cases had : regAdmitted offset width = true
      · rw [if_pos had] at h
        cases h
        exact .inl rfl
      · rw [if_neg had] at h
        cases h
        exact .inr (.inr (.inl ⟨rest, rfl⟩))
    | wait =>
      cases h
      cases busyBit s <;> exact .inl rfl
    | readString => cases h; exact .inl rfl
    | readDigest => cases h; exact .inl rfl

/-- What a step can be, by the agent whose turn it is. -/
theorem step_cases {s t : State} (h : step s = .next t) :
    (nextAgent s = .engine ∧ t = engineStep (takeTurn s)) ∨
    (nextAgent s = .hashUnit ∧ t = hashUnitStep (takeTurn s)) ∨
    (nextAgent s = .host ∧ hostStep (takeTurn s) = .next t) ∨
    (nextAgent s = .platform ∧ t = platformReset (takeTurn s)) := by
  unfold step at h
  cases ha : nextAgent s with
  | engine => rw [ha] at h; cases h; exact .inl ⟨rfl, rfl⟩
  | hashUnit => rw [ha] at h; cases h; exact .inr (.inl ⟨rfl, rfl⟩)
  | host => rw [ha] at h; exact .inr (.inr (.inl ⟨rfl, h⟩))
  | platform => rw [ha] at h; cases h; exact .inr (.inr (.inr ⟨rfl, rfl⟩))

/-! ## Runs -/

theorem runSteps_succ (n : Nat) {s t : State} (h : step s = .next t) :
    runSteps (n + 1) s = runSteps n t := by
  simp [runSteps, h]

theorem runSteps_one {s t : State} (h : step s = .next t) : runSteps 1 s = .next t := by
  simp [runSteps, h]

/-- A run goes on where a shorter one ended. -/
theorem runSteps_add (m n : Nat) {s t : State} (h : runSteps m s = .next t) :
    runSteps (m + n) s = runSteps n t := by
  induction m generalizing s with
  | zero => cases h; simp
  | succ m ih =>
    cases hs : step s with
    | next u =>
      rw [Nat.add_right_comm, runSteps_succ _ hs]
      exact ih (by simpa [runSteps, hs] using h)
    | fault r => simp [runSteps, hs] at h
    | refused r => simp [runSteps, hs] at h

/-- A run ends where it stands, whatever steps are left, once its end is met. -/
theorem runToEnd_ended (n : Nat) {s : State} (h : runEnded s = true) : runToEnd n s = some s := by
  cases n <;> simp [runToEnd, h]

/-- Before its end a run goes on with the next step. -/
theorem runToEnd_step (n : Nat) {s t : State} (h : runEnded s = false) (hs : step s = .next t) :
    runToEnd (n + 1) s = runToEnd n t := by
  simp [runToEnd, h, hs]

/-- What an end state within `n + 1` steps comes from. -/
theorem runToEnd_succ_cases {n : Nat} {s t : State} (h : runToEnd (n + 1) s = some t) :
    (runEnded s = true ∧ t = s) ∨
    (runEnded s = false ∧ ∃ u, step s = .next u ∧ runToEnd n u = some t) := by
  cases he : runEnded s with
  | true => simp [runToEnd, he] at h; exact .inl ⟨rfl, h.symm⟩
  | false =>
    cases hs : step s with
    | next u => exact .inr ⟨rfl, u, rfl, by simpa [runToEnd, he, hs] using h⟩
    | fault r => simp [runToEnd, he, hs] at h
    | refused r => simp [runToEnd, he, hs] at h

/-- With nobody named, the default agent moves. -/
theorem step_default {s : State} (hs : s.sched = []) : step s = agentStep (defaultAgent s) s := by
  have h : takeTurn s = s := by cases s; simp_all [takeTurn]
  simp only [step, nextAgent, hs, h]

/-- With nobody named, an enabled engine moves. -/
theorem step_engine {s : State} (hs : s.sched = []) (he : engineEnabled s = true) :
    step s = .next (engineStep s) := by
  rw [step_default hs]
  simp [defaultAgent, he, agentStep]

end Sys2Proof.Machine
end

