-- ==== Sys2Proof/Laws/Values.lean ====
section
/-! SUPPORT. Small lemmas about values: the fields of a command word, the windows, the strings and their characters, the lengths of digests, one CRC-16 step by its bytes. -/

namespace Sys2Proof

/-- A word is its three fields. -/
theorem word_fields (w : Word) : w = (rsvdField w ++ algField w ++ opField w : BitVec 32) := by
  unfold rsvdField algField opField
  apply BitVec.eq_of_getLsbD_eq
  intro i hi
  refine Eq.trans ?_ (@BitVec.getLsbD_append 30 2 i
    (BitVec.extractLsb' 5 27 w ++ BitVec.extractLsb' 2 3 w) (BitVec.extractLsb' 0 2 w)).symm
  rw [@BitVec.getLsbD_append 27 3 (i - 2)]
  simp only [BitVec.getLsbD_extractLsb']
  by_cases h1 : i < 2
  · simp [h1]
  · by_cases h2 : i - 2 < 3
    · simp [h1, h2, show 2 + (i - 2) = i by omega]
    · simp [h1, h2, show 5 + (i - 2 - 3) = i by omega, show i - 2 - 3 < 27 by omega]

namespace Machine

/-! ## Windows -/

theorem windowOf_getElem (n : Nat) (l : List Byte) (i : Nat) (h : i < n) :
    (windowOf n l)[i] = l.getD i 0 := by simp [windowOf]

/-- Bytes written over a cleared window. -/
theorem writeFront_zero (n : Nat) (l : List Byte) :
    writeFront (Vector.replicate n 0#8) l = windowOf n l := by
  apply Vector.ext
  intro i h
  rw [writeFront_getElem, windowOf_getElem]
  split
  · rfl
  · simp [List.getD, List.getElem?_eq_none (show l.length ≤ i by omega)]

/-! ## Strings -/

theorem fmtBytes_length (d : List Byte) : (fmtBytes d).length = 2 * d.length := by
  induction d with
  | nil => rfl
  | cons b d ih => simp [fmtBytes, ih]; omega

theorem hexdigit_injective : ∀ a b : BitVec 4, hexdigit a = hexdigit b → a = b := by decide

theorem hexdigit_isHexCode : ∀ a : BitVec 4, isHexCode (hexdigit a) = true := by decide

theorem fmtBytes_isHexCode (d : List Byte) : ∀ c ∈ fmtBytes d, isHexCode c = true := by
  induction d with
  | nil => simp [fmtBytes]
  | cons b d ih =>
    simp only [fmtBytes, List.mem_cons, forall_eq_or_imp]
    exact ⟨hexdigit_isHexCode _, hexdigit_isHexCode _, ih⟩

/-- Every character of a string is a hexadecimal digit (44_digest_formatter R202). -/
theorem fmtDigest_isHexCode (d : Digest) : ∀ c ∈ fmtDigest d, isHexCode c = true := by
  cases d with
  | u16 v => simp [fmtDigest, fmtU16, hexdigit_isHexCode]
  | u32 v => simp [fmtDigest, fmtU32, hexdigit_isHexCode]
  | bytes b => exact fmtBytes_isHexCode b

/-! ## Digests -/

theorem hashMd5_length (s : List Byte) : (hashMd5 s).length = 16 := by
  cases s <;> simp [hashMd5]; rfl

theorem hashSha1_length (s : List Byte) : (hashSha1 s).length = 20 := by
  cases s <;> simp [hashSha1]; rfl

theorem hashSha256_length (s : List Byte) : (hashSha256 s).length = 32 := by
  cases s <;> simp [hashSha256]; rfl

theorem hashOf_length {alg : AlgorithmKind} {s h : List Byte} (hh : hashOf alg s = some h) :
    h.length = digestLength alg := by
  cases alg <;> simp only [hashOf, reduceCtorEq, Option.some.injEq] at hh <;> subst hh <;>
    simp [hashMd5_length, hashSha1_length, hashSha256_length, digestLength]

/-! ## CRC-16 -/

/-- One CRC-16 step by the two bytes of the accumulator (41_crc16 R131). -/
theorem crc16StepWith_bytes (table : Byte → BitVec 16) (a : BitVec 16) (b : Byte) :
    crc16StepWith table a b =
      table (a.extractLsb' 8 8 ^^^ b) ^^^ (a.extractLsb' 0 8 ++ 0#8 : BitVec 16) := by
  have h1 : ((a >>> 8) ^^^ b.setWidth 16).setWidth 8 = a.extractLsb' 8 8 ^^^ b := by
    ext i hi
    simp [BitVec.getElem_setWidth]
  have h2 : a <<< 8 = (a.extractLsb' 0 8 ++ 0#8 : BitVec 16) := by
    apply BitVec.eq_of_getLsbD_eq
    intro i hi
    refine Eq.trans ?_ (@BitVec.getLsbD_append 8 8 i _ _).symm
    by_cases h : i < 8
    · simp [h]
    · simp [h, hi, show i - 8 < 8 by omega, BitVec.getLsbD_eq_getElem (show i - 8 < 16 by omega)]
  rw [crc16StepWith, h1, h2]

end Machine

end Sys2Proof
end

