-- ==== Sys2Proof/Tests/Slice0.lean ====
section
/-! SUPPORT. Tests on fixed values, each expected value taken from the spec (95_test_vectors unless said otherwise), and a witness for the hypotheses of every statement. -/

namespace Sys2Proof.Tests

open Sys2Proof.Machine

/-! ## Helpers -/

/-- The answer is a next state that passes the test. -/
def nextIs (p : State → Bool) : Host.Outcome State Fault Refusal → Bool
  | .next s => p s
  | .fault _ => false
  | .refused _ => false

/-- IDLE with `bytes` at the start of BUF and LEN set to their number. -/
def idleOn (bytes : List Byte) : State :=
  { State.reset with
    buf := bytes.zipIdx.map fun (b, a) => (a, b), len := BitVec.ofNat 32 bytes.length }

/-- A command in progress over `bytes`, at byte `idx`. -/
def runningOn (op : Operation) (alg : AlgorithmKind) (bytes : List Byte) (idx : Word) : State :=
  { idleOn bytes with
    seq := .running, curOp := op, curAlg := alg, lenL := BitVec.ofNat 32 bytes.length, idx := idx
    acc32 := 0xFFFFFFFF, hreq := if isHash alg then .pending else .none }

/-- IDLE after a COMPUTE of the kind that left `bytes` in DIG. -/
def holding (kind : AlgorithmKind) (bytes : List Byte) : State :=
  { State.reset with
    done := true, dvalid := true, dkind := kind, dlen := BitVec.ofNat 32 bytes.length
    dig := windowOf 32 bytes }

/-- HALTED after a FORMAT from reset (V-D57). -/
def haltedState : State := { State.reset with seq := .halted, fcode := .digestNotValid }

/-- The host has one access to do, and it is its turn. -/
def hostDoes (op : HostOp) (s : State) : State := { s with hostq := [op], sched := [.host] }

/-- The words from a REG offset on. -/
def wordsAt (offset n : Nat) (s : State) : List Word :=
  (List.range n).map fun k => regRead (offset + 4 * k) s

/-- The test instance of the CRC-16 table, 95_test_vectors section 2.2; not the device's table. -/
def tt (i : Byte) : BitVec 16 := BitVec.ofNat 16 (i.toNat * 0x9E37)

/-! ## Decoding: the words of 30_encoding R75, as RSVD, ALG, OP -/

theorem test_decode_runCrc16 : decode (0#27 ++ 0b000#3 ++ 0b00#2) = .ok .runCrc16 := by decide
theorem test_decode_computeCrc16 : decode (0#27 ++ 0b000#3 ++ 0b01#2) = .ok .computeCrc16 := by decide
theorem test_decode_formatCrc16 : decode (0#27 ++ 0b000#3 ++ 0b10#2) = .ok .formatCrc16 := by decide
theorem test_decode_runCrc32 : decode (0#27 ++ 0b001#3 ++ 0b00#2) = .ok .runCrc32 := by decide
theorem test_decode_computeCrc32 : decode (0#27 ++ 0b001#3 ++ 0b01#2) = .ok .computeCrc32 := by decide
theorem test_decode_formatCrc32 : decode (0#27 ++ 0b001#3 ++ 0b10#2) = .ok .formatCrc32 := by decide
theorem test_decode_runMd5 : decode (0#27 ++ 0b010#3 ++ 0b00#2) = .ok .runMd5 := by decide
theorem test_decode_computeMd5 : decode (0#27 ++ 0b010#3 ++ 0b01#2) = .ok .computeMd5 := by decide
theorem test_decode_formatMd5 : decode (0#27 ++ 0b010#3 ++ 0b10#2) = .ok .formatMd5 := by decide
theorem test_decode_runSha1 : decode (0#27 ++ 0b011#3 ++ 0b00#2) = .ok .runSha1 := by decide
theorem test_decode_computeSha1 : decode (0#27 ++ 0b011#3 ++ 0b01#2) = .ok .computeSha1 := by decide
theorem test_decode_formatSha1 : decode (0#27 ++ 0b011#3 ++ 0b10#2) = .ok .formatSha1 := by decide
theorem test_decode_runSha256 : decode (0#27 ++ 0b100#3 ++ 0b00#2) = .ok .runSha256 := by decide
theorem test_decode_computeSha256 : decode (0#27 ++ 0b100#3 ++ 0b01#2) = .ok .computeSha256 := by decide
theorem test_decode_formatSha256 : decode (0#27 ++ 0b100#3 ++ 0b10#2) = .ok .formatSha256 := by decide

/-- The illegal words with RSVD = 0, listed in 30_encoding R76. -/
theorem test_decode_illegal :
    ([0x03, 0x07, 0x0B, 0x0F, 0x13, 0x17, 0x1B, 0x1F] : List Word).all
      (fun w => decode w matches .error .reservedOperation) = true ∧
    ([0x14, 0x15, 0x16, 0x18, 0x19, 0x1A, 0x1C, 0x1D, 0x1E] : List Word).all
      (fun w => decode w matches .error .noSuchAlgorithm) = true := by decide

/-- V-D56. -/
theorem test_decode_reserved :
    ([0x00000020, 0x80000001, 0xFFFFFFFF] : List Word).all
      (fun w => decode w matches .error .reservedBits) = true := by decide

/-! ## Well-formedness: each check refuses an ill-formed term -/

theorem test_wf_reservedBits : legalWord 0x00000020 = false := by decide
theorem test_wf_reservedOperation : legalWord 0x00000003 = false := by decide
theorem test_wf_noSuchAlgorithm : legalWord 0x00000014 = false := by decide
theorem test_wf_legal : legalWord 0x00000012 = true := by decide
theorem test_wf_bufAddress :
    (HostOp.bufWrite (2 ^ 32) 0).wellFormed = false ∧ (HostOp.bufRead (2 ^ 32)).wellFormed = false ∧
    (HostOp.bufRead (2 ^ 32 - 1)).wellFormed = true := by decide
theorem test_wf_regAccess :
    (HostOp.regRead 0x05 1).wellFormed = false ∧ (HostOp.regRead 0x06 4).wellFormed = false ∧
    (HostOp.regWrite 0x100 4 0).wellFormed = false ∧ (HostOp.regWrite 0xFC 4 0).wellFormed = true := by
  decide

/-! ## One command, one step -/

/-- V-D47: STATUS reads 1 while a RUN or COMPUTE is in progress. -/
theorem test_runCrc16_accept :
    nextIs (fun t => statusWord t == 1 && t.acc16 == 0 && t.lenL == 2)
      (exec .runCrc16 (idleOn [0x12, 0x34])) = true := by decide
/-- V-D48, V-D17: the finish of COMPUTE.CRC16 of the empty buffer. -/
theorem test_computeCrc16_finish :
    wordsAt 0x20 1 (engineStep (runningOn .compute .crc16 [] 0)) = [0] ∧
    statusWord (engineStep (runningOn .compute .crc16 [] 0)) = 0x00000006 := by decide
/-- V-S5: the finish of RUN.CRC16 of the empty buffer. -/
theorem test_runCrc16_finish :
    wordsAt 0x40 2 (engineStep (runningOn .run .crc16 [] 0)) = [0x30303030, 0] := by decide
/-- V-D34, V-D51. -/
theorem test_formatCrc16 :
    nextIs (fun t => wordsAt 0x40 2 t == [0x44334434, 0] && statusWord t == 0x00000006)
      (exec .formatCrc16 (holding .crc16 [0x3D, 0x4D])) = true := by decide

/-- 42_crc32 R155: the accumulator at accept. -/
theorem test_runCrc32_accept :
    nextIs (fun t => statusWord t == 1 && t.acc32 == 0xFFFFFFFF)
      (exec .runCrc32 (idleOn [0x61])) = true := by decide
/-- V-D3: the byte step of "a". -/
theorem test_computeCrc32_byte :
    (engineStep (runningOn .compute .crc32 [0x61] 0)).acc32 = 0x174841BC ∧
    (engineStep (runningOn .compute .crc32 [0x61] 0)).idx = 1 := by decide
/-- V-D53: the finish of RUN.CRC32 of "123456789". -/
theorem test_runCrc32_finish :
    let t := engineStep { runningOn .run .crc32 [0x31] 1 with acc32 := 0xCBF43926 ^^^ 0xFFFFFFFF }
    wordsAt 0x20 1 t = [0xCBF43926] ∧ wordsAt 0x40 3 t = [0x34464243, 0x36323933, 0] ∧
    statusWord t = 0x00000106 := by decide
/-- V-D38: 352441C2. -/
theorem test_formatCrc32 :
    nextIs (fun t => wordsAt 0x40 3 t == [0x34323533, 0x32433134, 0])
      (exec .formatCrc32 (holding .crc32 [0xC2, 0x41, 0x24, 0x35])) = true := by decide

/-- 43_hash_delegation R172: one request. -/
theorem test_runMd5_accept :
    nextIs (fun t => statusWord t == 1 && t.hreq == .pending) (exec .runMd5 State.reset) = true := by
  decide
/-- V-S1, V-D50: the finish of RUN.MD5 of the empty buffer. -/
theorem test_runMd5_finish :
    let t := engineStep (hashUnitStep (runningOn .run .md5 [] 0))
    wordsAt 0x20 5 t = [0xD98C1DD4, 0x04B2008F, 0x980980E9, 0x7E42F8EC, 0] ∧
    wordsAt 0x40 2 t = [0x44313444, 0x39444338] ∧ statusWord t = 0x00000206 := by decide
/-- 43_hash_delegation R174: COMPUTE writes no string. -/
theorem test_computeMd5_finish :
    let t := engineStep (hashUnitStep (runningOn .compute .md5 [] 0))
    t.dlen = 16 ∧ t.outlen = 0 ∧ wordsAt 0x40 1 t = [0] := by decide
/-- V-S1. -/
theorem test_formatMd5 :
    nextIs (fun t => t.outlen == 32 && wordsAt 0x58 3 t == [0x38464345, 0x45373234, 0])
      (exec .formatMd5 (holding .md5 [0xD4, 0x1D, 0x8C, 0xD9, 0x8F, 0x00, 0xB2, 0x04, 0xE9, 0x80, 0x09,
        0x98, 0xEC, 0xF8, 0x42, 0x7E])) = true := by decide

theorem test_runSha1_accept :
    nextIs (fun t => statusWord t == 1 && t.hreq == .pending && t.curAlg == .sha1)
      (exec .runSha1 State.reset) = true := by decide
/-- V-S2, V-D50: the finish of COMPUTE.SHA1 of the empty buffer. -/
theorem test_computeSha1_finish :
    let t := engineStep (hashUnitStep (runningOn .compute .sha1 [] 0))
    wordsAt 0x20 6 t = [0xEEA339DA, 0x0D4B6B5E, 0xEFBF5532, 0x90186095, 0x0907D8AF, 0] ∧
    statusWord t = 0x00000306 := by decide
/-- V-S2: the last words of the string, over its own digest. -/
theorem test_formatSha1 :
    nextIs (fun t => t.outlen == 40 && wordsAt 0x60 3 t == [0x38444641, 0x39303730, 0])
      (exec .formatSha1 (holding .sha1 [0xDA, 0x39, 0xA3, 0xEE, 0x5E, 0x6B, 0x4B, 0x0D, 0x32, 0x55, 0xBF,
        0xEF, 0x95, 0x60, 0x18, 0x90, 0xAF, 0xD8, 0x07, 0x09])) = true := by decide

/-- V-S3, V-D50: the finish of RUN.SHA256 of the empty buffer. -/
theorem test_runSha256_finish :
    let t := engineStep (hashUnitStep (runningOn .run .sha256 [] 0))
    wordsAt 0x38 2 t = [0x1B9995A4, 0x55B85278] ∧ wordsAt 0x40 1 t = [0x30423345] ∧
    wordsAt 0x7C 1 t = [0x35353842] ∧ statusWord t = 0x00000406 := by decide
theorem test_computeSha256_accept :
    nextIs (fun t => statusWord t == 1 && t.hreq == .pending && t.curAlg == .sha256)
      (exec .computeSha256 State.reset) = true := by decide
/-- V-S3: the ends of the string, over the ends of its digest. -/
theorem test_formatSha256 :
    nextIs (fun t => t.outlen == 64 && wordsAt 0x40 1 t == [0x30423345] && wordsAt 0x7C 1 t == [0x35353842])
      (exec .formatSha256 (holding .sha256
        ([0xE3, 0xB0] ++ List.replicate 28 0 ++ [0xB8, 0x55]))) = true := by decide

/-! ## The computations -/

/-- V-D2, V-D5 to V-D9, V-D12. -/
theorem test_crc32_vectors :
    crc32 [0x00] = 0xD202EF8D ∧ crc32 [0x00, 0x00, 0x00, 0x00] = 0x2144DF1C ∧
    crc32 [0xFF] = 0xFF000000 ∧ crc32 [0x01] = 0xA505DF1B ∧ crc32 [0x80] = 0x3FBA6CAD ∧
    crc32 [0xFF, 0xFF, 0xFF, 0xFF] = 0xFFFFFFFF ∧ crc32 [0x00, 0x01, 0x02, 0x03] = 0x8BB98613 := by
  decide
/-- V-D24 to V-D29, under the test table. -/
theorem test_crc16_vectors :
    crc16With tt [0xFF] = 0x98C9 ∧ crc16With tt [0x80] = 0x1B80 ∧ crc16With tt [0x12, 0x34] = 0x4D3D ∧
    crc16With tt [0x00, 0x12, 0x34] = 0x4D3D ∧ crc16With tt [0x12, 0x34, 0x00] = 0xAB8B ∧
    crc16With tt [0x61, 0x62, 0x63] = 0x4BE6 := by decide
/-- V-D30. -/
theorem test_crc16_check :
    crc16With tt [0x31, 0x32, 0x33, 0x34, 0x35, 0x36, 0x37, 0x38, 0x39] = 0x1CEC := by decide
/-- V-D33, V-D36, V-D39, V-D40. -/
theorem test_formatter_vectors :
    fmtU16 0x00AB = [0x30, 0x30, 0x41, 0x42] ∧
    fmtU32 0x0000000F = [0x30, 0x30, 0x30, 0x30, 0x30, 0x30, 0x30, 0x46] ∧
    fmtBytes [0x00, 0xFF, 0x0A] = [0x30, 0x30, 0x46, 0x46, 0x30, 0x41] ∧
    fmtBytes [0x0A] = [0x30, 0x41] := by decide

/-! ## Exceptions, the host and reset -/

/-- V-D56, V-D59, V-D60. -/
theorem test_illegal_status :
    nextIs (fun t => statusWord t == 0x00000028) (takeWord 0x80000001 State.reset) = true ∧
    nextIs (fun t => statusWord t == 0x00000018) (takeWord 0x0000001A State.reset) = true ∧
    nextIs (fun t => statusWord t == 0x00000028) (takeWord 0x0000001F State.reset) = true := by decide
/-- V-D57. -/
theorem test_format_without_digest :
    nextIs (fun t => statusWord t == 0x00000038) (exec .formatCrc16 State.reset) = true := by decide
/-- V-D58. -/
theorem test_format_of_another_kind :
    nextIs (fun t => statusWord t == 0x0000004C)
      (exec .formatCrc32 (holding .crc16 [0x00, 0x00])) = true := by decide
/-- V-D61. -/
theorem test_halted_ignores :
    nextIs (fun t => t == { haltedState with hostq := [], sched := [] })
      (step (hostDoes (.regWrite 0x00 4 0x00000000) haltedState)) = true := by decide
/-- V-D63: held while RUNNING. -/
theorem test_running_holds :
    nextIs (fun t => t.hostq == [.regWrite 0x00 4 0x00000008] && t.curAlg == .crc32)
      (step (hostDoes (.regWrite 0x00 4 0x00000008) (runningOn .run .crc32 [0x61] 0))) = true := by
  decide
/-- V-D64. -/
theorem test_refused_access :
    nextIs (fun t => t.refused && t.reads == []) (step (hostDoes (.regRead 0x05 1) State.reset)) = true ∧
    nextIs (fun t => t.refused && t.reads == []) (step (hostDoes (.regRead 0x06 4) State.reset)) = true := by
  decide
/-- V-D65: the mark; the byte is written. -/
theorem test_buffer_write_while_running :
    nextIs (fun t => t.cfault && t.tainted && t.buf == [(0, 0x62)])
      (step (hostDoes (.bufWrite 0 0x62) (runningOn .run .crc32 [0x61] 0))) = true := by decide
/-- V-D70. -/
theorem test_reset_with_request :
    (platformReset (runningOn .run .md5 [] 0)).hreq = .none ∧
    hashUnitEnabled (platformReset (runningOn .run .md5 [] 0)) = false ∧
    statusWord (platformReset (runningOn .run .md5 [] 0)) = 0 := by decide
/-- V-D67: reset leaves HALTED, and FORMAT faults again. -/
theorem test_reset_in_halted :
    statusWord (platformReset haltedState) = 0 ∧
    nextIs (fun t => t.fcode == .digestNotValid) (exec .formatCrc16 (platformReset haltedState)) = true := by
  decide
/-- V-D54. -/
theorem test_reserved_offsets :
    regRead 0x1C (holding .md5 [0xFF]) = 0 ∧ regRead 0x80 (holding .md5 [0xFF]) = 0 ∧
    regRead 0xFC (holding .md5 [0xFF]) = 0 := by decide
/-- 30_encoding R79 `RDSTR`: one read per word of the string. -/
theorem test_readString :
    nextIs (fun t => t.hostq == [.regRead 0x40 4, .regRead 0x44 4] && t.reads == [.reg 0x10 8])
      (step (hostDoes .readString { State.reset with outlen := 8 })) = true := by decide
/-- 70_reset_and_hazards R254: the run ends HALTED, and a reset that would follow is no part of it. -/
theorem test_run_ends_at_first :
    let s := launch (cmdw 0x00000003) [] [.host, .platform]
    (runToEnd 2 s).map statusWord = some 0x00000028 ∧ runSucceeded 2 s = false := by decide
/-- The step after `withFetchWord` runs the word as the first command after reset. -/
theorem test_withFetchWord :
    step (State.reset.withFetchWord 32 0x11) = exec .computeSha256 State.reset := by rfl
/-- The canonical form: a write keeps the addresses rising and replaces an old byte. -/
theorem test_memory_write :
    Memory.write (Memory.write (Memory.write [] 7 1) 3 2) 7 9 = [(3, 2), (7, 9)] ∧
    Memory.wf [(3, 2), (7, 9)] = true ∧ Memory.wf [(7, 9), (3, 2)] = false := by decide

/-! ## Witnesses: states and operands that meet the hypotheses of each statement -/

/-- A command presented by the host in the state. -/
def presenting (w : Word) (s : State) : State := hostDoes (.regWrite 0x00 4 w) s

/-- A CRC command over a buffer of `n` bytes, at byte `idx`; the largest buffers too. -/
def crcAt (alg : AlgorithmKind) (n idx : Word) : State :=
  { State.reset with seq := .running, curAlg := alg, lenL := n, idx := idx, acc32 := 0xFFFFFFFF }

theorem witness_IllegalWordsRaiseTheirFatalEvent :
    State.reset.seq = .idle ∧
    BitVec.extractLsb' 5 27 (0x20 : Word) ≠ 0 ∧ BitVec.extractLsb' 5 27 (0x80000000 : Word) ≠ 0 ∧
    (BitVec.extractLsb' 5 27 (0x03 : Word) = 0 ∧ BitVec.extractLsb' 0 2 (0x03 : Word) = 0b11) ∧
    (BitVec.extractLsb' 5 27 (0x1F : Word) = 0 ∧ BitVec.extractLsb' 0 2 (0x1F : Word) = 0b11) ∧
    (BitVec.extractLsb' 5 27 (0x14 : Word) = 0 ∧ BitVec.extractLsb' 0 2 (0x14 : Word) ≠ 0b11 ∧
      BitVec.extractLsb' 2 3 (0x14 : Word) = 0b101) ∧
    (BitVec.extractLsb' 5 27 (0x1E : Word) = 0 ∧ BitVec.extractLsb' 0 2 (0x1E : Word) ≠ 0b11 ∧
      BitVec.extractLsb' 2 3 (0x1E : Word) = 0b111) := by decide

theorem witness_AcceptStepFollowsCheck :
    State.reset.seq = .idle ∧ check 0x20 State.reset ≠ .none ∧ check 0x02 State.reset ≠ .none ∧
    (check 0x00 State.reset = .none ∧ BitVec.extractLsb' 0 2 (0x00 : Word) ≠ 0b10) ∧
    (check 0x12 (holding .sha256 []) = .none ∧ BitVec.extractLsb' 0 2 (0x12 : Word) = 0b10) := by decide

theorem witness_StepRunsTheDecodedCommand :
    (nextAgent (presenting 0x11 State.reset) = .host ∧
      (presenting 0x11 State.reset).hostq = [.regWrite 0x00 4 0x11] ∧
      (presenting 0x11 State.reset).seq ≠ .running ∧ decode 0x11 = .ok .computeSha256) ∧
    (nextAgent (presenting 0x11 haltedState) = .host ∧ (presenting 0x11 haltedState).seq ≠ .running) ∧
    (decode 0x03 = .error .reservedOperation ∧ (presenting 0x03 State.reset).seq = .idle) := by decide

theorem witness_FetchWordPresentsTheCommand :
    State.reset.seq ≠ .running ∧ haltedState.seq ≠ .running := by decide

theorem witness_CommandWriteHoldsWhileRunning :
    (presenting 0x00 (crcAt .crc32 1 0)).seq = .running ∧
    nextAgent (presenting 0x00 (crcAt .crc32 1 0)) = .host ∧
    (presenting 0x00 (crcAt .crc32 1 0)).hostq = [.regWrite 0x00 4 0x00] := by decide

theorem witness_CommandWriteIgnoredWhenHalted :
    (presenting 0xFFFFFFFF haltedState).seq = .halted ∧
    nextAgent (presenting 0xFFFFFFFF haltedState) = .host ∧
    (presenting 0xFFFFFFFF haltedState).hostq = [.regWrite 0x00 4 0xFFFFFFFF] := by decide

theorem witness_AcceptOfRunAndCompute :
    State.reset.seq = .idle ∧ Instr.runCrc16.operation ≠ .format ∧ Instr.computeSha256.operation ≠ .format := by
  decide

theorem witness_FormatWritesTheStringOfTheDigest :
    ∀ k ∈ [AlgorithmKind.crc16, .crc32, .md5, .sha1, .sha256],
      (holding k []).seq = .idle ∧ (holding k []).dvalid = true ∧ (holding k []).dkind = k := by decide

theorem witness_FormatFaultsWithoutItsDigest :
    (State.reset.seq = .idle ∧ State.reset.dvalid = false) ∧
    ((holding .crc16 []).seq = .idle ∧ (holding .crc16 []).dvalid = true ∧
      (holding .crc16 []).dkind ≠ .sha256) := by decide

theorem witness_FormatMayBeRepeated :
    (holding .crc16 [1, 2]).seq = .idle ∧ (holding .crc16 [1, 2]).dvalid = true ∧
    (holding .crc16 [1, 2]).dkind = .crc16 ∧
    ∃ t, exec (instrOf .format .crc16) (holding .crc16 [1, 2]) = .next t := ⟨rfl, rfl, rfl, _, rfl⟩

/-- The last byte of the largest buffer, and the only byte of the smallest. -/
theorem witness_Crc16ByteStepEffect :
    ∀ s ∈ [crcAt .crc16 1 0, crcAt .crc16 0xFFFFFFFF 0xFFFFFFFE],
      s.seq = .running ∧ s.curAlg = .crc16 ∧ s.idx < s.lenL := by decide

theorem witness_Crc32ByteStepEffect :
    ∀ s ∈ [crcAt .crc32 1 0, crcAt .crc32 0xFFFFFFFF 0xFFFFFFFE],
      s.seq = .running ∧ s.curAlg = .crc32 ∧ s.idx < s.lenL := by decide

theorem witness_HashUnitStepEffect :
    (∀ k ∈ [AlgorithmKind.md5, .sha1, .sha256],
      (runningOn .run k [] 0).hreq = .pending ∧ (runningOn .run k [] 0).curAlg = k) ∧
    State.reset.hreq ≠ .pending := by decide

theorem witness_FinishEffect :
    (crcAt .crc16 0 0).tainted = false ∧ (runningOn .run .md5 [] 0).curOp = .run ∧
    (runningOn .compute .md5 [] 0).curOp ≠ .run ∧ (runningOn .compute .md5 [] 0).tainted = false ∧
    format (.u16 0x4D3D) (crcAt .crc16 0 0).curAlg = some [0x34, 0x44, 0x33, 0x44] := by
  decide

theorem witness_EngineFinishesOrHolds :
    (∀ k ∈ [AlgorithmKind.crc16, .crc32], ∀ n ∈ [(0 : Word), 0xFFFFFFFF],
      (crcAt k n n).seq = .running ∧ (crcAt k n n).curAlg = k ∧ (crcAt k n n).idx = (crcAt k n n).lenL) ∧
    (∀ k ∈ [AlgorithmKind.md5, .sha1, .sha256],
      (runningOn .run k [] 0).seq = .running ∧ isHash (runningOn .run k [] 0).curAlg = true ∧
      (runningOn .run k [] 0).hreq ≠ .answered) ∧
    (hashUnitStep (runningOn .run .sha256 [] 0)).hreq = .answered ∧
    State.reset.seq ≠ .running ∧
    (∀ k ∈ [AlgorithmKind.crc16, .crc32], ∀ n ∈ [(0 : Word), 0xFFFFFFFE],
      (crcAt k (n + 1) n).seq = .running ∧ (crcAt k (n + 1) n).curAlg = k ∧
      (crcAt k (n + 1) n).idx < (crcAt k (n + 1) n).lenL) :=
  ⟨by simp [crcAt], by decide, rfl, by decide, by simp [crcAt]⟩

/-- The five whole-command statements: the smallest buffer and the largest. -/
theorem witness_Crc16CommandResult :
    ∀ n ∈ [(0 : Word), 0xFFFFFFFF],
      { State.reset with len := n }.seq = .idle ∧ { State.reset with len := n }.sched = [] := fun _ _ => ⟨rfl, rfl⟩
theorem witness_Crc32CommandResult : (idleOn [0x61]).seq = .idle ∧ (idleOn [0x61]).sched = [] :=
  ⟨rfl, rfl⟩
theorem witness_HashCommandResult :
    State.reset.seq = .idle ∧ State.reset.sched = [] ∧
    hashOf .md5 (Memory.range State.reset.buf 0 State.reset.len.toNat) = some md5Empty ∧
    hashOf .sha1 (Memory.range State.reset.buf 0 State.reset.len.toNat) = some sha1Empty ∧
    hashOf .sha256 (Memory.range State.reset.buf 0 State.reset.len.toNat) = some sha256Empty :=
  ⟨rfl, rfl, rfl, rfl, rfl⟩
theorem witness_RunEqualsComputeThenFormat :
    (holding .sha1 [1]).seq = .idle ∧ (holding .sha1 [1]).sched = [] := by decide
theorem witness_ComputeIsPure :
    State.reset ≠ holding .md5 [1] ∧ State.reset.seq = .idle ∧ (holding .md5 [1]).seq = .idle ∧
    State.reset.sched = [] ∧ (holding .md5 [1]).sched = [] ∧ State.reset.len = (holding .md5 [1]).len ∧
    Memory.range State.reset.buf 0 State.reset.len.toNat =
      Memory.range (holding .md5 [1]).buf 0 (holding .md5 [1]).len.toNat := by decide

theorem witness_WideAccumulatorGivesTheSameCrc16 : 16 ≤ 16 ∧ 16 ≤ 32 := by decide
theorem witness_LeadingZerosLeaveCrc16 : tt 0 = 0 := by decide
theorem witness_Crc16OfOneAndTwoBytes : tt 0 = 0 ∧ tt 1 ≠ 0 := by decide
theorem witness_FmtBytesIsTwoDigitsPerByteAndInjective : fmtBytes [0xAB] = fmtBytes [0xAB] := rfl
theorem witness_FormatOfComputeIsDefined :
    format (.u16 0x4D3D) .crc16 = some [0x34, 0x44, 0x33, 0x44] ∧
    (format (.bytes (hashSha256 [])) .sha256).isSome = true := by decide
theorem witness_LenWriteDoesNotReachTheCommand :
    State.reset.seq = .idle ∧ Instr.computeCrc32.operation ≠ .format := by decide
theorem witness_AlgorithmsGiveDifferentStrings : AlgorithmKind.crc16 ≠ AlgorithmKind.sha256 := by decide

/-- The first and the last word of each window; both ends of both reserved ranges. -/
theorem witness_RegisterReadValues :
    0 < 8 ∧ 7 < 8 ∧ 0 < 16 ∧ 15 < 16 ∧
    ∀ o ∈ [0x14, 0x1C, 0x80, 0xFC], (0x14 ≤ o ∧ o < 0x20) ∨ 0x80 ≤ o := by decide

theorem witness_RegisterWriteEffect :
    (hostDoes (.regWrite 0x08 4 9) State.reset).hostq = [.regWrite 0x08 4 9] ∧
    ∀ o ∈ [0x04, 0xFC], o % 4 = 0 ∧ o < 0x100 ∧ o ≠ 0x00 ∧ o ≠ 0x08 ∧
      (hostDoes (.regWrite o 4 9) State.reset).hostq = [.regWrite o 4 9] := by decide

theorem witness_ReadsHaveNoSideEffect :
    (∀ o ∈ [0x00, 0xFC], o % 4 = 0 ∧ o < 0x100 ∧
      (hostDoes (.regRead o 4) State.reset).hostq = [.regRead o 4]) ∧
    2 ^ 32 - 1 < 2 ^ 32 ∧
    (hostDoes (.bufRead (2 ^ 32 - 1)) State.reset).hostq = [.bufRead (2 ^ 32 - 1)] :=
  ⟨by decide, by decide, rfl⟩

theorem witness_RefusedAccessSetsOnlyItsMark :
    (1 ≠ 4 ∧ (hostDoes (.regRead 0x04 1) State.reset).hostq = [.regRead 0x04 1]) ∧
    (0x06 % 4 ≠ 0 ∧ (hostDoes (.regRead 0x06 4) State.reset).hostq = [.regRead 0x06 4]) ∧
    (0x100 ≤ 0x100 ∧ (hostDoes (.regWrite 0x100 4 0) State.reset).hostq = [.regWrite 0x100 4 0]) := by decide

theorem witness_BufferWriteEffect :
    (2 ^ 32 - 1 < 2 ^ 32 ∧ (hostDoes (.bufWrite (2 ^ 32 - 1) 1) State.reset).hostq = [.bufWrite (2 ^ 32 - 1) 1] ∧
      (hostDoes (.bufWrite (2 ^ 32 - 1) 1) State.reset).seq ≠ .running) ∧
    ((hostDoes (.bufWrite 0 1) (crcAt .crc16 1 0)).hostq = [.bufWrite 0 1] ∧
      (hostDoes (.bufWrite 0 1) (crcAt .crc16 1 0)).seq = .running) := by decide

theorem witness_FaultedCommandHasFreeResults :
    { crcAt .crc16 0 0 with tainted := true }.tainted = true ∧
    { crcAt .crc16 0 0 with tainted := true }.curOp = .run ∧
    (digestBytes (.u16 1)).length = (digestBytes (.u16 2)).length ∧
    (fmtDigest (.u16 1)).length = (fmtDigest (.u16 2)).length := by decide

/-- The last byte of BUF. -/
theorem witness_BufwWritesItsBytes :
    let s : State := { State.reset with hostq := bufw (2 ^ 32 - 1) [0xAB] ++ [.wait] }
    s.seq ≠ .running ∧ s.hreq = .none ∧ s.sched = [] ∧ 2 ^ 32 - 1 + [0xAB].length ≤ 2 ^ 32 ∧
    s.hostq = bufw (2 ^ 32 - 1) [0xAB] ++ [.wait] := by decide

theorem witness_PseudoStatementsExpand :
    (hostDoes .wait (crcAt .crc16 1 0)).hostq = [.wait] ∧ (hostDoes .wait (crcAt .crc16 1 0)).seq = .running ∧
    (hostDoes .wait State.reset).hostq = [.wait] ∧ (hostDoes .wait State.reset).seq ≠ .running ∧
    (hostDoes .readString State.reset).hostq = [.readString] ∧
    (hostDoes .readDigest State.reset).hostq = [.readDigest] := by decide

theorem witness_BlockNeverWritesBuf :
    ∃ t, exec .runCrc16 (idleOn [0x61]) = .next t := ⟨_, rfl⟩

theorem witness_OnlyTheBufferIsRead :
    ∀ a, a < (runningOn .run .crc32 [0x61] 0).lenL.toNat →
      Memory.read [(0, 0x61), (1, 0xFF)] a = Memory.read (runningOn .run .crc32 [0x61] 0).buf a := by decide

theorem witness_MarksAreNeverCleared :
    ∃ t, step { State.reset with cfault := true, refused := true, sched := [.platform] } = .next t := ⟨_, rfl⟩

theorem witness_OnlyAcceptEntersRunning :
    ∃ t, step (presenting 0x00 State.reset) = .next t ∧
      (presenting 0x00 State.reset).seq ≠ .running ∧ t.seq = .running := ⟨_, rfl, by decide, rfl⟩

theorem witness_StepStopsOnlyAtAMissingAddress :
    step (hostDoes (.bufRead (2 ^ 32)) State.reset) = .fault .noSuchBufAddress := rfl

theorem witness_LaunchMeetsTheInvariant : Memory.wf [(0, 0x61), (2 ^ 32 - 1, 0x62)] = true := by decide

/-- The invariant holds at reset. -/
theorem reset_inv : Inv State.reset := by
  constructor <;> decide

theorem haltedState_inv : Inv haltedState := by
  constructor <;> decide

/-- A RUN.CRC16 command of the empty buffer, about to finish. -/
def aboutToFinish : State := crcAt .crc16 0 0

theorem aboutToFinish_inv : Inv aboutToFinish := by
  constructor <;> decide

theorem aboutToFinish_progress : Progress aboutToFinish := by
  constructor <;> decide

/-- The same with COMPUTE.CRC16. -/
def aboutToFinishCompute : State := { aboutToFinish with curOp := .compute }

theorem aboutToFinishCompute_inv : Inv aboutToFinishCompute ∧ Progress aboutToFinishCompute := by
  constructor <;> constructor <;> decide

/-- A RUN.MD5 command with its request pending. -/
theorem hashPending_inv : Inv (runningOn .run .md5 [] 0) := by
  constructor <;> decide

/-- Reset with other values in the registers that have none, and the step that stops for both. -/
def otherReset : State := { State.reset with acc16 := 1, acc32 := 2, idx := 3, curAlg := .sha1, hans := [] }

theorem witness_RegistersWithoutAValueAreNeverRead :
    Inv State.reset ∧ Inv otherReset ∧ otherReset ≠ State.reset ∧
    forgetUnread State.reset = forgetUnread otherReset ∧ (∃ t, step State.reset = .next t) ∧
    Inv (hostDoes (.bufRead (2 ^ 32)) State.reset) ∧ Inv (hostDoes (.bufRead (2 ^ 32)) otherReset) ∧
    forgetUnread (hostDoes (.bufRead (2 ^ 32)) State.reset) =
      forgetUnread (hostDoes (.bufRead (2 ^ 32)) otherReset) ∧
    step (hostDoes (.bufRead (2 ^ 32)) State.reset) = .fault .noSuchBufAddress :=
  ⟨reset_inv, by constructor <;> decide, by decide, rfl, ⟨_, rfl⟩,
    by constructor <;> decide, by constructor <;> decide, rfl, rfl⟩

theorem witness_HaltedUntilReset :
    Inv haltedState ∧ haltedState.seq = .halted ∧ Agent.host ≠ .platform ∧
    ∃ t, agentStep .host haltedState = .next t := ⟨haltedState_inv, rfl, by decide, _, rfl⟩

theorem witness_StepKeepsTheInvariant :
    Inv aboutToFinish ∧ ∃ t, step aboutToFinish = .next t := ⟨aboutToFinish_inv, _, rfl⟩

theorem witness_StepKeepsProgress :
    Inv aboutToFinish ∧ Progress aboutToFinish ∧ ∃ t, step aboutToFinish = .next t :=
  ⟨aboutToFinish_inv, aboutToFinish_progress, _, rfl⟩

theorem witness_FinishStoresTheDigestOfTheBuffer :
    (Inv aboutToFinish ∧ Progress aboutToFinish ∧ aboutToFinish.seq = .running ∧
      aboutToFinish.tainted = false ∧ nextAgent aboutToFinish ≠ .platform ∧ aboutToFinish.curOp = .run ∧
      ∃ t, step aboutToFinish = .next t ∧ t.seq ≠ .running) ∧
    (Inv aboutToFinishCompute ∧ Progress aboutToFinishCompute ∧ aboutToFinishCompute.seq = .running ∧
      aboutToFinishCompute.tainted = false ∧ nextAgent aboutToFinishCompute ≠ .platform ∧
      aboutToFinishCompute.curOp = .compute ∧
      ∃ t, step aboutToFinishCompute = .next t ∧ t.seq ≠ .running) :=
  ⟨⟨aboutToFinish_inv, aboutToFinish_progress, rfl, rfl, by decide, rfl, _, rfl, by decide⟩,
    aboutToFinishCompute_inv.1, aboutToFinishCompute_inv.2, rfl, rfl, by decide, rfl, _, rfl, by decide⟩

theorem witness_StatusBitsExclude : Inv aboutToFinish := aboutToFinish_inv

/-- A run that ends in its first state, one that ends a step later without success, and one that has not
ended when its steps are used up. -/
theorem witness_RunEndsAtTheFirstEndState :
    runToEnd 0 State.reset = some State.reset ∧ runToEnd 3 State.reset = some State.reset ∧
    (runToEnd 1 (launch (cmdw 0x00000003) [] [])).isSome = true ∧
    runToEnd 0 (launch (cmdw 0x00000003) [] []) = none := by decide

theorem witness_RunningCommandEnds :
    (Inv aboutToFinish ∧ aboutToFinish.seq = .running ∧ aboutToFinish.sched = [] ∧
      isHash aboutToFinish.curAlg = false) ∧
    (Inv (runningOn .run .md5 [] 0) ∧ (runningOn .run .md5 [] 0).seq = .running ∧
      (runningOn .run .md5 [] 0).sched = []) :=
  ⟨⟨aboutToFinish_inv, rfl, rfl, rfl⟩, hashPending_inv, rfl, rfl⟩

end Sys2Proof.Tests
end

section
/-! PROOFS. 20_memory: no step of the block's own, no reset and no command writes BUF. -/

namespace Sys2Proof.Machine

/-! ## What each step of the block leaves in BUF -/

@[simp] theorem crc16Finish_buf (s : State) : (crc16Finish s).buf = s.buf := finish_buf _ s

@[simp] theorem crc32Finish_buf (s : State) : (crc32Finish s).buf = s.buf := finish_buf _ s

@[simp] theorem hashFinish_buf (s : State) : (hashFinish s).buf = s.buf := finish_buf _ s

/-- The engine never writes BUF (20_memory R58). -/
@[simp] theorem engineStep_buf (s : State) : (engineStep s).buf = s.buf := by
  obtain he | ⟨-, -, -, he⟩ | ⟨-, -, -, he⟩ | ⟨-, -, -, he⟩ | ⟨-, -, -, he⟩ | ⟨-, -, -, he⟩ :=
    engineStep_cases s <;> simp [he]

/-- The HashUnit never writes BUF (20_memory R58). -/
@[simp] theorem hashUnitStep_buf (s : State) : (hashUnitStep s).buf = s.buf := by
  obtain he | ⟨answer, -, -, -, he⟩ := hashUnitStep_cases s <;> simp [he]

/-! ## What a command leaves in BUF -/

@[simp] theorem acceptOf_buf (op : Operation) (alg : AlgorithmKind) (s : State) :
    (acceptOf op alg s).buf = s.buf := by
  rw [acceptOf_eq]
  exact acceptCompute_buf op alg s

@[simp] theorem acceptFormat_buf (alg : AlgorithmKind) (str : State → List Byte) (s : State) :
    (acceptFormat alg str s).buf = s.buf := by
  obtain ⟨-, he⟩ | ⟨-, -, he⟩ | ⟨-, -, he⟩ := acceptFormat_cases alg str s <;> simp [he]

/-- A command whose effect keeps BUF keeps it however the write to CMD is met: taken, held or ignored. -/
theorem takeCommand_buf {effect : State → State} (hf : ∀ u, (effect u).buf = u.buf) {s t : State}
    (h : takeCommand effect s = .next t) : t.buf = s.buf := by
  by_cases hs : s.seq = .idle
  · rw [takeCommand_idle effect s hs] at h
    cases h
    exact hf _
  · rw [takeCommand_not_idle effect s hs] at h
    cases h
    rfl

/-- No command writes BUF when it is written to CMD. -/
theorem exec_buf {i : Instr} {s t : State} (h : exec i s = .next t) : t.buf = s.buf := by
  rw [← instrOf_operation_algorithm i] at h
  by_cases hop : i.operation = .format
  · rw [hop, exec_format] at h
    exact takeCommand_buf (acceptFormat_buf _ _) h
  · rw [exec_accept _ _ s hop] at h
    exact takeCommand_buf (acceptOf_buf _ _) h

/-- Settles O43: each of the four kinds of step leaves the whole of BUF, so every byte reads the same. -/
theorem blockNeverWritesBuf : Obligations.BlockNeverWritesBuf := by
  intro s a
  refine ⟨?engine, ?hashUnit, ?reset, fun i t h => ?command⟩
  case engine => rw [engineStep_buf]
  case hashUnit => rw [hashUnitStep_buf]
  case reset => rw [platformReset_buf]
  case command => rw [exec_buf h]

end Sys2Proof.Machine
end

section
/-! PROOFS. 30_encoding: decode and encode are inverse to each other, and both are the table of R75. -/

namespace Sys2Proof

/-! ## The field codes -/

/-- Only the code of an operation names it (30_encoding R71). -/
theorem Operation.code_of_ofCode {c : BitVec 2} {op : Operation}
    (h : Operation.ofCode c = some op) : c = op.code := by
  unfold Operation.ofCode at h
  split_ifs at h with hrun hcompute hformat <;> cases h <;> assumption

/-- Only the code of an algorithm names it (30_encoding R72). -/
theorem AlgorithmKind.code_of_ofCode {c : BitVec 3} {alg : AlgorithmKind}
    (h : AlgorithmKind.ofCode c = some alg) : c = alg.code := by
  unfold AlgorithmKind.ofCode at h
  split_ifs at h with hcrc16 hcrc32 hmd5 hsha1 hsha256 <;> cases h <;> assumption

/-! ## Decode and encode -/

/-- The per-command encoding lemmas, of every command. -/
theorem Laws.encoding_of_instr : ∀ i : Instr, Laws.Encoding.Statement i
  | .runCrc16 => Encoding.runCrc16
  | .computeCrc16 => Encoding.computeCrc16
  | .formatCrc16 => Encoding.formatCrc16
  | .runCrc32 => Encoding.runCrc32
  | .computeCrc32 => Encoding.computeCrc32
  | .formatCrc32 => Encoding.formatCrc32
  | .runMd5 => Encoding.runMd5
  | .computeMd5 => Encoding.computeMd5
  | .formatMd5 => Encoding.formatMd5
  | .runSha1 => Encoding.runSha1
  | .computeSha1 => Encoding.computeSha1
  | .formatSha1 => Encoding.formatSha1
  | .runSha256 => Encoding.runSha256
  | .computeSha256 => Encoding.computeSha256
  | .formatSha256 => Encoding.formatSha256

theorem wellFormed_instr (i : Instr) : i.wellFormed = true :=
  (Laws.encoding_of_instr i).1

@[simp] theorem decode_encode (i : Instr) : decode (encode i) = .ok i :=
  (Laws.encoding_of_instr i).2.1

/-- Decode answers a command only on the fields of that command, one check after the other (30_encoding R76). -/
theorem fields_of_decode {w : Word} {i : Instr} (h : decode w = .ok i) :
    rsvdField w = 0 ∧ algField w = i.algorithm.code ∧ opField w = i.operation.code := by
  unfold decode at h
  by_cases hr : rsvdField w = 0
  · rw [if_neg (not_not.mpr hr)] at h
    cases ho : Operation.ofCode (opField w) with
    | none => simp [ho] at h
    | some op =>
      cases ha : AlgorithmKind.ofCode (algField w) with
      | none => simp [ho, ha] at h
      | some alg =>
        obtain rfl : instrOf op alg = i := by simpa [ho, ha] using h
        rw [Machine.algorithm_instrOf, Machine.operation_instrOf]
        exact ⟨hr, AlgorithmKind.code_of_ofCode ha, Operation.code_of_ofCode ho⟩
  · rw [if_pos hr] at h
    cases h

/-- A command's word is its encoding and no other, because a word is its three fields and decode fixes
all of them. -/
theorem decode_eq_ok_iff (w : Word) (i : Instr) : decode w = .ok i ↔ w = encode i := by
  constructor
  · intro h
    obtain ⟨hr, ha, ho⟩ := fields_of_decode h
    obtain ⟨hr', ha', ho'⟩ := fields_of_decode (decode_encode i)
    rw [word_fields w, word_fields (encode i), hr, ha, ho, hr', ha', ho']
  · rintro rfl
    exact decode_encode i

/-! ## The table -/

/-- The rows of the table of 30_encoding R75. -/
def commandTable : List (Word × Instr) :=
  [(0x00000000, .runCrc16), (0x00000001, .computeCrc16), (0x00000002, .formatCrc16),
   (0x00000004, .runCrc32), (0x00000005, .computeCrc32), (0x00000006, .formatCrc32),
   (0x00000008, .runMd5), (0x00000009, .computeMd5), (0x0000000A, .formatMd5),
   (0x0000000C, .runSha1), (0x0000000D, .computeSha1), (0x0000000E, .formatSha1),
   (0x00000010, .runSha256), (0x00000011, .computeSha256), (0x00000012, .formatSha256)]

/-- Each row pairs a command with its encoding, and each command has its row. -/
theorem mem_commandTable_iff (w : Word) (i : Instr) : (w, i) ∈ commandTable ↔ w = encode i := by
  have hrow : ∀ row ∈ commandTable, row.1 = encode row.2 := by decide
  constructor
  · exact hrow (w, i)
  · rintro rfl
    cases i <;> decide

/-- Settles O2: decode inverts encode on every word, and so does the table of R75. -/
theorem decodeAcceptsExactlyTheEncodings : Obligations.DecodeAcceptsExactlyTheEncodings := by
  intro w i
  exact ⟨wellFormed_instr i, decode_eq_ok_iff w i, rfl,
    (decode_eq_ok_iff w i).trans (mem_commandTable_iff w i).symm⟩

end Sys2Proof
end

section
/-! PROOFS. 40_command_model: the finish step of an untainted command, and the engine's one step row by row. -/

namespace Sys2Proof.Machine

/-! ## The finish step of an untainted command -/

/-- Without a taint the last assignments of `finish` touch neither the taint nor the counter of free bytes. -/
theorem completeCommand_clean {s : State} (ht : s.tainted = false) :
    completeCommand s = { s with dkind := s.curAlg, dvalid := true, done := true, seq := .idle } := by
  simp [completeCommand, ht]

/-- RUN stores the digest and its string. -/
theorem finish_run_clean (d : Digest) {s : State} (ht : s.tainted = false) (hop : s.curOp = .run) :
    finish d s = completeCommand (writeOut (fmtDigest d) (storeDigest (digestBytes d) s)) := by
  simp only [finish, hop, resultBytes_clean _ _ _ ht]

/-- Any other operation stores the digest alone. -/
theorem finish_not_run_clean (d : Digest) {s : State} (ht : s.tainted = false)
    (hop : s.curOp ≠ .run) :
    finish d s = completeCommand (storeDigest (digestBytes d) s) := by
  cases hc : s.curOp with
  | run => exact absurd hc hop
  | compute => simp only [finish, hc, resultBytes_clean _ _ _ ht]
  | format => simp only [finish, hc, resultBytes_clean _ _ _ ht]

theorem finish_dig_clean (d : Digest) {s : State} (ht : s.tainted = false) :
    (finish d s).dig = writeFront s.dig (digestBytes d) := by
  rw [finish_dig, resultBytes_clean _ _ _ ht]

theorem finish_outc_run_clean (d : Digest) {s : State} (ht : s.tainted = false)
    (hop : s.curOp = .run) : (finish d s).outc = writeFront s.outc (fmtDigest d) := by
  rw [finish_outc_run d s hop, resultBytes_clean _ _ _ ht]

/-- Where the formatter is defined, its string is the one of the digest's shape (44_digest_formatter R194). -/
theorem eq_fmtDigest_of_format {d : Digest} {alg : AlgorithmKind} {str : List Byte}
    (h : format d alg = some str) : str = fmtDigest d := by
  unfold format at h
  split at h
  case h_1 | h_2 => exact (Option.some.inj h).symm
  case h_3 | h_4 | h_5 =>
    split_ifs at h
    exact (Option.some.inj h).symm
  case h_6 => cases h

/-- Settles O16: the finish step is its stores followed by `completeCommand`, and each window is read
element by element. -/
theorem finishEffect : Obligations.FinishEffect := by
  intro d s ht
  refine ⟨fun hop => ?frameNotRun, fun hop => ?frameRun, fun i hi => ?dig, fun hop i hi => ?outc,
    ?u16, ?u32, ?bytes, fun str => eq_fmtDigest_of_format⟩
  case frameNotRun =>
    rw [finish_dig_clean d ht, finish_not_run_clean d ht hop]
    exact completeCommand_clean ht
  case frameRun =>
    rw [finish_dig_clean d ht, finish_outc_run_clean d ht hop, finish_run_clean d ht hop]
    exact completeCommand_clean ht
  case dig => simp only [finish_dig_clean d ht, writeFront_getElem]
  case outc => simp only [finish_outc_run_clean d ht hop, writeFront_getElem]
  case u16 => rintro v rfl; rfl
  case u32 => rintro v rfl; rfl
  case bytes => rintro b rfl; rfl

/-! ## The engine's step by state and algorithm -/

theorem engineStep_not_running {s : State} (hs : s.seq ≠ .running) : engineStep s = s := by
  cases hq : s.seq with
  | running => exact absurd hq hs
  | idle => simp only [engineStep, hq]
  | halted => simp only [engineStep, hq]

theorem engineStep_crc16 {s : State} (hs : s.seq = .running) (ha : s.curAlg = .crc16) :
    engineStep s =
      if s.idx < s.lenL then crc16ByteStep s else if s.idx = s.lenL then crc16Finish s else s := by
  simp only [engineStep, hs, ha]

theorem engineStep_crc32 {s : State} (hs : s.seq = .running) (ha : s.curAlg = .crc32) :
    engineStep s =
      if s.idx < s.lenL then crc32ByteStep s else if s.idx = s.lenL then crc32Finish s else s := by
  simp only [engineStep, hs, ha]

theorem engineStep_hash {s : State} (hs : s.seq = .running) (ha : isHash s.curAlg = true) :
    engineStep s = if s.hreq = .answered then hashFinish s else s := by
  cases hk : s.curAlg with
  | crc16 | crc32 => simp [hk, isHash] at ha
  | md5 | sha1 | sha256 => simp only [engineStep, hs, hk, hashEngineStep]

/-- A CRC whose IDX has reached LEN_L has no byte left. -/
theorem idx_not_lt_of_eq {s : State} (h : s.idx = s.lenL) : ¬ s.idx < s.lenL :=
  h ▸ BitVec.lt_irrefl _

/-- Settles O17: each row picks its branch of the engine's step. -/
theorem engineFinishesOrHolds : Obligations.EngineFinishesOrHolds := by
  intro s
  refine ⟨fun hs ha hi => ?crc16Byte, fun hs ha hi => ?crc32Byte, fun hs ha hi => ?crc16Finish,
    fun hs ha hi => ?crc32Finish, fun hs ha hq => ?hashFinish, fun hs ha hq => ?hashHold,
    engineStep_not_running⟩
  case crc16Byte => rw [engineStep_crc16 hs ha, if_pos hi]
  case crc32Byte => rw [engineStep_crc32 hs ha, if_pos hi]
  case crc16Finish => rw [engineStep_crc16 hs ha, if_neg (idx_not_lt_of_eq hi), if_pos hi, crc16Finish]
  case crc32Finish => rw [engineStep_crc32 hs ha, if_neg (idx_not_lt_of_eq hi), if_pos hi, crc32Finish]
  case hashFinish => rw [engineStep_hash hs ha, if_pos hq, hashFinish]
  case hashHold => rw [engineStep_hash hs ha, if_neg hq]

end Sys2Proof.Machine
end

section
/-! PROOFS. 41_crc16: the byte step and its frame, the width of the accumulator, and the laws of the fold. -/

namespace Sys2Proof.Machine

/-! ## The byte step -/

/-- Settles O13: the engine takes its byte step, which is the one of R131 by the accumulator's two bytes. -/
theorem crc16ByteStepEffect : Obligations.Crc16ByteStepEffect := by
  intro s hs ha hi
  rw [engineStep_crc16 hs ha, if_pos hi, crc16ByteStep, crc16Step, crc16StepWith_bytes, nextBufByte]

/-! ## The width of the accumulator -/

/-- The source's step of an accumulator without a bound (41_crc16 R133). -/
def crc16WideStep (table : Byte → BitVec 16) (A : Nat) (b : Byte) : Nat :=
  (table (BitVec.ofNat 8 (((A >>> 8) ^^^ b.toNat) &&& 0xFF))).toNat ^^^ (A <<< 8)

/-- A truncation to `w` bits loses what a wider one before it lost. -/
theorem ofNat_mod_two_pow {w W : Nat} (hW : w ≤ W) (A : Nat) :
    BitVec.ofNat w (A % 2 ^ W) = BitVec.ofNat w A :=
  BitVec.eq_of_toNat_eq (by
    rw [BitVec.toNat_ofNat, BitVec.toNat_ofNat, Nat.mod_mod_of_dvd _ (Nat.pow_dvd_pow 2 hW)])

/-- Both accumulators look up the same entry: the index takes bits 8 to 15 only. -/
theorem crc16Index_ofNat (A : Nat) (b : Byte) :
    ((BitVec.ofNat 16 A >>> 8) ^^^ b.setWidth 16).setWidth 8 =
      BitVec.ofNat 8 (((A >>> 8) ^^^ b.toNat) &&& 0xFF) := by
  rw [show 0xFF = 2 ^ 8 - 1 from rfl, Nat.and_two_pow_sub_one_eq_mod, ofNat_mod_two_pow le_rfl]
  apply BitVec.eq_of_getLsbD_eq
  intro i hi
  have hhigh : 8 + i < 16 := by omega
  have hlow : i < 16 := by omega
  simp only [BitVec.getLsbD_setWidth, BitVec.getLsbD_xor, BitVec.getLsbD_ushiftRight,
    BitVec.getLsbD_ofNat, Nat.testBit_xor, Nat.testBit_shiftRight, BitVec.testBit_toNat, hi, hhigh, hlow,
    decide_true, Bool.true_and]

/-- Truncated to 16 bits, the unbounded step is `crc16_step` of the truncated accumulator. -/
theorem ofNat_crc16WideStep (table : Byte → BitVec 16) (A : Nat) (b : Byte) :
    BitVec.ofNat 16 (crc16WideStep table A b) = crc16StepWith table (BitVec.ofNat 16 A) b := by
  have hshift : BitVec.ofNat 16 (A <<< 8) = BitVec.ofNat 16 A <<< 8 :=
    BitVec.eq_of_toNat_eq (by simp [Nat.shiftLeft_eq])
  rw [crc16WideStep, crc16StepWith, crc16Index_ofNat, BitVec.ofNat_xor, BitVec.ofNat_toNat,
    BitVec.setWidth_eq, hshift]

/-- An accumulator whose every step truncates to `crc16_step` gives the CRC-16, truncated at the end. -/
theorem ofNat_foldl_eq_crc16With {table : Byte → BitVec 16} {f : Nat → Byte → Nat}
    (hf : ∀ A b, BitVec.ofNat 16 (f A b) = crc16StepWith table (BitVec.ofNat 16 A) b)
    (s : List Byte) : BitVec.ofNat 16 (s.foldl f 0) = crc16With table s :=
  (List.foldl_hom (BitVec.ofNat 16) fun A b => (hf A b).symm).symm

/-- Settles O23: truncation to 16 bits commutes with the unbounded step, so with the step of any width of 16
bits or more, and both fold to the CRC-16. -/
theorem wideAccumulatorGivesTheSameCrc16 : Obligations.WideAccumulatorGivesTheSameCrc16 := by
  intro table s
  have hwide : ∀ W A b, 16 ≤ W → BitVec.ofNat 16 (crc16WideStep table A b % 2 ^ W) =
      crc16StepWith table (BitVec.ofNat 16 A) b := fun W A b hW => by
    rw [ofNat_mod_two_pow hW, ofNat_crc16WideStep]
  exact ⟨hwide, fun W hW => ofNat_foldl_eq_crc16With (fun A b => hwide W A b hW) s,
    ofNat_foldl_eq_crc16With (ofNat_crc16WideStep table) s⟩

/-! ## The laws of the fold -/

/-- A zero accumulator adds nothing to the table's entry for the byte. -/
theorem crc16StepWith_zero (table : Byte → BitVec 16) (b : Byte) :
    crc16StepWith table 0 b = table b := by
  simp [crc16StepWith]

theorem crc16With_cons_zero {table : Byte → BitVec 16} (h0 : table 0 = 0) (s : List Byte) :
    crc16With table (0 :: s) = crc16With table s := by
  rw [crc16With, List.foldl_cons, crc16StepWith_zero, h0, crc16With]

theorem crc16With_replicate_zero_append {table : Byte → BitVec 16} (h0 : table 0 = 0) (n : Nat)
    (s : List Byte) : crc16With table (List.replicate n 0 ++ s) = crc16With table s := by
  induction n with
  | zero => rfl
  | succ n ih => rw [List.replicate_succ, List.cons_append, crc16With_cons_zero h0, ih]

/-- Settles O24: a zero byte in front leaves the accumulator at zero, so by induction do `n` of them. -/
theorem leadingZerosLeaveCrc16 : Obligations.LeadingZerosLeaveCrc16 := by
  refine ⟨if_pos rfl, fun table h0 n => ⟨?_, crc16With_replicate_zero_append h0 n⟩⟩
  calc crc16With table (List.replicate n 0)
      = crc16With table (List.replicate n 0 ++ []) := by rw [List.append_nil]
    _ = crc16With table [] := crc16With_replicate_zero_append h0 n []
    _ = 0 := rfl

theorem crc16With_singleton (table : Byte → BitVec 16) (b : Byte) : crc16With table [b] = table b :=
  crc16StepWith_zero table b

theorem crc16With_pair (table : Byte → BitVec 16) (b0 b1 : Byte) :
    crc16With table [b0, b1] =
      table ((table b0).extractLsb' 8 8 ^^^ b1) ^^^ ((table b0).extractLsb' 0 8 ++ 0#8) := by
  rw [← crc16StepWith_bytes, ← crc16StepWith_zero table b0]
  rfl

/-- Settles O25: the special cases of two bytes are a zero byte in front and `x ^^^ 0 = x`. -/
theorem crc16OfOneAndTwoBytes : Obligations.Crc16OfOneAndTwoBytes := by
  intro table b0 b1
  refine ⟨crc16With_singleton table b0, crc16With_pair table b0 b1, fun h0 => ?zeroFirst, ?zeroSecond⟩
  case zeroFirst => rw [crc16With_cons_zero h0, crc16With_singleton]
  case zeroSecond => simp only [crc16With_pair, BitVec.ofNat_eq_ofNat, BitVec.xor_zero]

end Sys2Proof.Machine
end

section
/-! PROOFS. 42_crc32: the byte step and its frame, the table, and the CRC-32 of fixed and of one-byte sequences. -/

namespace Sys2Proof.Machine

/-! ## The byte step -/

/-- One CRC-32 step by the low byte of the accumulator (42_crc32 R152). -/
theorem crc32Step_bytes (a : BitVec 32) (b : Byte) :
    crc32Step a b = (a >>> 8) ^^^ t32 (a.extractLsb' 0 8 ^^^ b) := by
  have hindex : (a ^^^ b.setWidth 32).setWidth 8 = a.extractLsb' 0 8 ^^^ b := by
    rw [BitVec.setWidth_xor, BitVec.setWidth_setWidth_of_le _ (by decide), BitVec.setWidth_eq,
      BitVec.setWidth_eq_extractLsb' (by decide)]
  rw [crc32Step, hindex]

/-- Settles O14: the engine takes its byte step, which is the one of R152 by the accumulator's low byte. -/
theorem crc32ByteStepEffect : Obligations.Crc32ByteStepEffect := by
  intro s hs ha hi
  rw [engineStep_crc32 hs ha, if_pos hi, crc32ByteStep, crc32Step_bytes, nextBufByte]

/-! ## The table -/

/-- Settles O26: the 256 listed entries are computed one by one from the construction. -/
theorem crc32TableIsTheConstruction : Obligations.Crc32TableIsTheConstruction := by
  unfold Obligations.Crc32TableIsTheConstruction
  decide

/-! ## Values of the fold -/

/-- The final XOR of R153 is the complement of the folded accumulator. -/
theorem crc32_eq_not_foldl (s : List Byte) : crc32 s = ~~~ s.foldl crc32Step 0xFFFFFFFF :=
  BitVec.xor_allOnes

/-- The step from the initial accumulator, whose low byte is 0xFF. -/
theorem crc32Step_init (b : Byte) : crc32Step 0xFFFFFFFF b = 0x00FFFFFF ^^^ t32 (b ^^^ 0xFF) := by
  rw [crc32Step_bytes, BitVec.xor_comm b]
  rfl

theorem crc32_singleton (b : Byte) : crc32 [b] = ~~~ (0x00FFFFFF ^^^ t32 (b ^^^ 0xFF)) := by
  rw [crc32_eq_not_foldl, List.foldl_cons, List.foldl_nil, crc32Step_init]

/-- Settles O27: the fold runs over nine fixed bytes. -/
theorem crc32CheckValue : Obligations.Crc32CheckValue := by
  unfold Obligations.Crc32CheckValue
  decide

/-- Settles O28: the second form moves the complement to the constant. -/
theorem crc32OfOneByte : Obligations.Crc32OfOneByte := by
  intro b
  refine ⟨crc32_singleton b, ?_⟩
  calc crc32 [b]
      = ~~~ (0x00FFFFFF ^^^ t32 (b ^^^ 0xFF)) := crc32_singleton b
    _ = ~~~ 0x00FFFFFF ^^^ t32 (b ^^^ 0xFF) := BitVec.not_xor_left
    _ = 0xFF000000 ^^^ t32 (b ^^^ 0xFF) := rfl

end Sys2Proof.Machine
end

section
/-! PROOFS. 44_digest_formatter: the sixteen digits, the string of a byte sequence, and the strings of
the digests `compute` gives. -/

namespace Sys2Proof.Machine

/-! ## Digits -/

/-- Settles O29: the sixteen digits are computed one by one. -/
theorem hexDigitCodes : Obligations.HexDigitCodes := by
  unfold Obligations.HexDigitCodes
  decide

/-- The codes of 44_digest_formatter R202 as two ranges. -/
theorem isHexCode_iff (c : Byte) : isHexCode c = true ↔
    (0x30 ≤ c.toNat ∧ c.toNat ≤ 0x39) ∨ (0x41 ≤ c.toNat ∧ c.toNat ≤ 0x46) := by
  simp [isHexCode, BitVec.le_def]

/-! ## The string of a byte sequence -/

theorem fmtBytes_eq_flatMap (d : List Byte) : fmtBytes d =
    d.flatMap fun b => [hexdigit (b.extractLsb' 4 4), hexdigit (b.extractLsb' 0 4)] := by
  induction d with
  | nil => rfl
  | cons b d ih => rw [fmtBytes, ih, List.flatMap_cons, List.cons_append, List.singleton_append]

/-- A byte is its two nibbles. -/
theorem byte_nibbles (b : Byte) : b.extractLsb' 4 4 ++ b.extractLsb' 0 4 = b := by
  rw [BitVec.extractLsb'_append_extractLsb'_eq_extractLsb' (by decide), BitVec.extractLsb'_eq_self]

/-- Two bytes with the same two digits are the same byte. -/
theorem byte_eq_of_hexdigits {b c : Byte}
    (hhigh : hexdigit (b.extractLsb' 4 4) = hexdigit (c.extractLsb' 4 4))
    (hlow : hexdigit (b.extractLsb' 0 4) = hexdigit (c.extractLsb' 0 4)) : b = c := by
  rw [← byte_nibbles b, ← byte_nibbles c, hexdigit_injective _ _ hhigh, hexdigit_injective _ _ hlow]

theorem fmtBytes_injective : Function.Injective fmtBytes := by
  intro d e h
  induction d generalizing e with
  | nil =>
    cases e with
    | nil => rfl
    | cons c e => cases h
  | cons b d ih =>
    cases e with
    | nil => cases h
    | cons c e =>
      simp only [fmtBytes, List.cons.injEq] at h
      obtain ⟨hhigh, hlow, hrest⟩ := h
      rw [byte_eq_of_hexdigits hhigh hlow, ih hrest]

/-- Settles O30: the encoding is read off byte by byte, and equal digits are equal nibbles. -/
theorem fmtBytesIsTwoDigitsPerByteAndInjective :
    Obligations.FmtBytesIsTwoDigitsPerByteAndInjective :=
  ⟨fmtBytes_eq_flatMap, fmtBytes_length, fun _ _ h => fmtBytes_injective h⟩

/-! ## The strings of what `compute` gives -/

/-- `compute` pairs every kind with a digest that R194 defines a string for. -/
theorem format_compute (s : List Byte) (alg : AlgorithmKind) :
    format (compute s alg) alg = some (fmtDigest (compute s alg)) := by
  cases alg with
  | crc16 | crc32 => rfl
  | md5 => exact if_pos (hashMd5_length s)
  | sha1 => exact if_pos (hashSha1_length s)
  | sha256 => exact if_pos (hashSha256_length s)

theorem fmtDigest_compute_length (s : List Byte) (alg : AlgorithmKind) :
    (fmtDigest (compute s alg)).length = stringLength alg := by
  cases alg with
  | crc16 | crc32 => rfl
  | md5 | sha1 | sha256 =>
    simp only [compute, fmtDigest, fmtBytes_length, hashMd5_length, hashSha1_length,
      hashSha256_length, stringLength]

/-- Settles O31: the formatter answers with the string of the digest's shape, whose characters are all digits. -/
theorem formatOfComputeIsDefined : Obligations.FormatOfComputeIsDefined := by
  refine ⟨fun s alg => ⟨_, format_compute s alg, rfl, fmtDigest_compute_length s alg⟩, rfl,
    fun d alg str h c hc => ?digit⟩
  case digit =>
    rw [eq_fmtDigest_of_format h] at hc
    exact (isHexCode_iff c).mp (fmtDigest_isHexCode d c hc)

/-- The five string lengths are all different. -/
theorem stringLength_injective : Function.Injective stringLength := by
  intro a b
  cases a <;> cases b <;> decide

/-- The string tells which algorithm gave it, by its length (44_digest_formatter R203). -/
theorem fmtDigest_compute_injective (s : List Byte) :
    Function.Injective fun alg => fmtDigest (compute s alg) := by
  intro a b h
  apply stringLength_injective
  calc stringLength a
      = (fmtDigest (compute s a)).length := (fmtDigest_compute_length s a).symm
    _ = (fmtDigest (compute s b)).length := congrArg List.length h
    _ = stringLength b := fmtDigest_compute_length s b

/-- Settles O32: equal answers or equal digests would give strings of one length. -/
theorem algorithmsGiveDifferentStrings : Obligations.AlgorithmsGiveDifferentStrings := by
  refine ⟨fun s a b hab => ⟨fun hstr => hab ?string, fun hdig => hab ?digest⟩, rfl, rfl⟩
  case string =>
    rw [format_compute, format_compute] at hstr
    exact fmtDigest_compute_injective s (Option.some.inj hstr)
  case digest => exact fmtDigest_compute_injective s (congrArg fmtDigest hdig)

end Sys2Proof.Machine
end

section
/-! PROOFS. 60_exceptions: the words and the FORMAT commands that halt the block, and the host accesses
that only set a model-only mark. -/

namespace Sys2Proof

/-! ## The words that are no command -/

theorem Operation.ofCode_eq_none_iff : ∀ c : BitVec 2, Operation.ofCode c = none ↔ c = 0b11 := by
  decide

theorem AlgorithmKind.ofCode_eq_none_iff : ∀ c : BitVec 3,
    AlgorithmKind.ofCode c = none ↔ c = 0b101 ∨ c = 0b110 ∨ c = 0b111 := by
  decide

/-- The first check is of RSVD (60_exceptions R211). -/
theorem decode_reservedBits {w : Word} (hr : rsvdField w ≠ 0) : decode w = .error .reservedBits :=
  if_pos hr

/-- The second check is of OP (60_exceptions R212). -/
theorem decode_reservedOperation {w : Word} (hr : rsvdField w = 0) (ho : opField w = 0b11) :
    decode w = .error .reservedOperation := by
  simp only [decode, if_neg (not_not.mpr hr), (Operation.ofCode_eq_none_iff _).mpr ho]

/-- The third check is of ALG (60_exceptions R213). -/
theorem decode_noSuchAlgorithm {w : Word} (hr : rsvdField w = 0) (ho : opField w ≠ 0b11)
    (ha : algField w = 0b101 ∨ algField w = 0b110 ∨ algField w = 0b111) :
    decode w = .error .noSuchAlgorithm := by
  obtain ⟨op, hop⟩ := Option.ne_none_iff_exists'.mp (mt (Operation.ofCode_eq_none_iff _).mp ho)
  simp only [decode, if_neg (not_not.mpr hr), hop, (AlgorithmKind.ofCode_eq_none_iff _).mpr ha]

namespace Machine

/-! ## The fatal events at accept -/

/-- In IDLE a word that is no command halts the block with the code of its reason (30_encoding R77). -/
theorem takeWord_illegal {w : Word} {e : Illegal} {s : State} (hd : decode w = .error e)
    (hs : s.seq = .idle) :
    takeWord w s = .next { s with seq := .halted, fcode := illegalCode e, done := false } := by
  rw [takeWord, hd]
  exact takeCommand_idle _ s hs

/-- Settles O3: each clause is one check of decode, and the halted state is that of its reason. -/
theorem illegalWordsRaiseTheirFatalEvent : Obligations.IllegalWordsRaiseTheirFatalEvent := by
  refine ⟨rfl, rfl, fun w s hs => ⟨fun hr => ?reservedBits, fun hr ho => ?reservedOperation,
    fun hr ho ha => ?noSuchAlgorithm⟩⟩
  case reservedBits => exact takeWord_illegal (decode_reservedBits hr) hs
  case reservedOperation => exact takeWord_illegal (decode_reservedOperation hr ho) hs
  case noSuchAlgorithm => exact takeWord_illegal (decode_noSuchAlgorithm hr ho ha) hs

/-- `acceptFormat` with no digest held (60_exceptions R214). -/
theorem acceptFormat_digestNotValid (alg : AlgorithmKind) (str : State → List Byte) {s : State}
    (hv : s.dvalid = false) : acceptFormat alg str s = raiseFatal .digestNotValid s :=
  if_pos hv

/-- `acceptFormat` with a digest of another kind held (60_exceptions R215). -/
theorem acceptFormat_digestKindMismatch {alg : AlgorithmKind} (str : State → List Byte) {s : State}
    (hv : s.dvalid = true) (hk : s.dkind ≠ alg) :
    acceptFormat alg str s = raiseFatal .digestKindMismatch s := by
  have hcode : s.dkind.code ≠ alg.code := mt AlgorithmKind.code_injective.mp hk
  rw [acceptFormat, if_neg (by simp [hv]), if_pos hcode]

/-- Settles O11: every FORMAT is `acceptFormat` of its kind on the state with DONE cleared, and the digest
it wants is missing in each clause. -/
theorem formatFaultsWithoutItsDigest : Obligations.FormatFaultsWithoutItsDigest := by
  refine ⟨rfl, rfl, fun s alg hs => ?_⟩
  rw [exec_format, takeCommand_idle _ s hs]
  refine ⟨fun hv => ?notValid, fun hv hk => ?otherKind⟩
  case notValid => exact congrArg _ (acceptFormat_digestNotValid alg _ hv)
  case otherKind => exact congrArg _ (acceptFormat_digestKindMismatch _ hv hk)

/-! ## A BUF write of the host -/

/-- Outside RUNNING a write inside the space is the store alone (20_memory R52). -/
theorem hostStep_bufWrite_not_running {s : State} {a : Nat} {v : Byte} {rest : List HostOp}
    (hq : s.hostq = .bufWrite a v :: rest) (ha : a < Config.bufSize) (hr : s.seq ≠ .running) :
    hostStep s = .next { s with hostq := rest, buf := s.buf.write a v } := by
  have hr' : isRunning { s with hostq := rest } = false := (isRunning_false_iff _).mpr hr
  simp only [hostStep, hq, hostBufWrite, if_pos ha, hr', Bool.false_eq_true, if_false]

/-- In RUNNING it is the store and the contract fault (60_exceptions R224). -/
theorem hostStep_bufWrite_running {s : State} {a : Nat} {v : Byte} {rest : List HostOp}
    (hq : s.hostq = .bufWrite a v :: rest) (ha : a < Config.bufSize) (hr : s.seq = .running) :
    hostStep s = .next (markContractFault { s with hostq := rest, buf := s.buf.write a v }) := by
  have hr' : isRunning { s with hostq := rest } = true := (isRunning_iff _).mpr hr
  simp only [hostStep, hq, hostBufWrite, if_pos ha, hr', if_true]

/-- Settles O39: in and outside RUNNING the store is `Memory.write`; the fault comes on top of it in RUNNING. -/
theorem bufferWriteEffect : Obligations.BufferWriteEffect := by
  intro s a v rest ha hq
  have hsame := Memory.read_write_same s.buf a v
  have hother := fun x => Memory.read_write_other s.buf a x v
  by_cases hr : s.seq = .running
  · exact ⟨_, hostStep_bufWrite_running hq ha hr, rfl, hsame, hother, fun _ => rfl,
      fun hn => absurd hr hn⟩
  · exact ⟨_, hostStep_bufWrite_not_running hq ha hr, rfl, hsame, hother, fun h => absurd h hr,
      fun _ => ⟨rfl, rfl⟩⟩

/-! ## A register access that is not admitted -/

/-- The three causes of a refusal (60_exceptions R225). -/
theorem regAdmitted_eq_false_iff (offset width : Nat) :
    regAdmitted offset width = false ↔ width ≠ 4 ∨ offset % 4 ≠ 0 ∨ 0x100 ≤ offset := by
  simp [regAdmitted, imp_iff_not_or, or_assoc]

theorem hostStep_regRead_refused {s : State} {offset width : Nat} {rest : List HostOp}
    (hq : s.hostq = .regRead offset width :: rest) (h : regAdmitted offset width = false) :
    hostStep s = .next (markRefused { s with hostq := rest }) := by
  simp only [hostStep, hq, hostRegRead, h, Bool.false_eq_true, if_false]

theorem hostStep_regWrite_refused {s : State} {offset width : Nat} {v : Word} {rest : List HostOp}
    (hq : s.hostq = .regWrite offset width v :: rest) (h : regAdmitted offset width = false) :
    hostStep s = .next (markRefused { s with hostq := rest }) := by
  simp only [hostStep, hq, hostRegWrite, h, if_true]

/-- Settles O38: a read and a write that are refused leave the same state, `markRefused` without the access. -/
theorem refusedAccessSetsOnlyItsMark : Obligations.RefusedAccessSetsOnlyItsMark := by
  intro s offset width v rest hcause haccess
  have had := (regAdmitted_eq_false_iff offset width).mpr hcause
  obtain hq | hq := haccess
  · exact ⟨_, hostStep_regRead_refused hq had, rfl⟩
  · exact ⟨_, hostStep_regWrite_refused hq had, rfl⟩

end Machine

end Sys2Proof
end

section
/-! PROOFS. 70_reset_and_hazards: no step reads a register without a value before it is written (R242), and
none reads LEN after the accept (R248). -/

namespace Sys2Proof.Machine

/-! ## The engine's step on two states -/

/-- Two states that every guard of the engine's step meets alike (40_command_model R107). -/
def EngineGuardsAgree (s u : State) : Prop :=
  u.seq = s.seq ∧ (s.seq = .running →
    u.curAlg = s.curAlg ∧ u.idx = s.idx ∧ u.lenL = s.lenL ∧ u.hreq = s.hreq)

theorem engineEnabled_congr {s u : State} (hg : EngineGuardsAgree s u) :
    engineEnabled u = engineEnabled s := by
  obtain ⟨hseq, hguards⟩ := hg
  by_cases hs : s.seq = .running
  · obtain ⟨halg, hidx, hlen, hreq⟩ := hguards hs
    simp only [engineEnabled, hseq, halg, hidx, hlen, hreq]
  · have hidle : (s.seq == .running) = false := beq_false_of_ne hs
    simp only [engineEnabled, hseq, hidle, Bool.false_and]

/-- Where the guards agree, both states take the same row of the engine's step, so a relation that every row
establishes holds after the step. -/
theorem engineStep_rel {R : State → State → Prop} {s u : State} (hg : EngineGuardsAgree s u) (hold : R s u)
    (byte16 : s.seq = .running → s.curAlg = .crc16 → R (crc16ByteStep s) (crc16ByteStep u))
    (byte32 : s.seq = .running → s.curAlg = .crc32 → R (crc32ByteStep s) (crc32ByteStep u))
    (finish16 : s.seq = .running → s.curAlg = .crc16 → R (crc16Finish s) (crc16Finish u))
    (finish32 : s.seq = .running → s.curAlg = .crc32 → R (crc32Finish s) (crc32Finish u))
    (hash : s.seq = .running → s.hreq = .answered → R (hashFinish s) (hashFinish u)) :
    R (engineStep s) (engineStep u) := by
  obtain ⟨hseq, hguards⟩ := hg
  by_cases hs : s.seq = .running
  case neg =>
    rw [engineStep_not_running hs, engineStep_not_running (hseq ▸ hs)]
    exact hold
  obtain ⟨halg, hidx, hlen, hreq⟩ := hguards hs
  have hsu : u.seq = .running := hseq.trans hs
  cases ha : s.curAlg with
  | crc16 =>
    rw [engineStep_crc16 hs ha, engineStep_crc16 hsu (halg.trans ha), hidx, hlen]
    split_ifs
    exacts [byte16 hs ha, finish16 hs ha, hold]
  | crc32 =>
    rw [engineStep_crc32 hs ha, engineStep_crc32 hsu (halg.trans ha), hidx, hlen]
    split_ifs
    exacts [byte32 hs ha, finish32 hs ha, hold]
  | md5 | sha1 | sha256 =>
    have hk : isHash s.curAlg = true := by rw [ha]; rfl
    rw [engineStep_hash hs hk, engineStep_hash hsu (halg ▸ hk), hreq]
    split_ifs with hq
    exacts [hash hs hq, hold]

/-! ## Forgetting the registers that have no value -/

@[simp] theorem forgetUnread_seq (s : State) : (forgetUnread s).seq = s.seq := rfl
@[simp] theorem forgetUnread_hreq (s : State) : (forgetUnread s).hreq = s.hreq := rfl
@[simp] theorem forgetUnread_hostq (s : State) : (forgetUnread s).hostq = s.hostq := rfl
@[simp] theorem isRunning_forgetUnread (s : State) : isRunning (forgetUnread s) = isRunning s := rfl
@[simp] theorem busyBit_forgetUnread (s : State) : busyBit (forgetUnread s) = busyBit s := rfl
@[simp] theorem regRead_forgetUnread (offset : Nat) (s : State) :
    regRead offset (forgetUnread s) = regRead offset s := rfl

/-- During a command only the accumulator not in use and an answer that has not come have no value. -/
theorem forgetUnread_running {s : State} (hs : s.seq = .running) :
    forgetUnread s = { s with
      acc16 := if s.curAlg = .crc16 then s.acc16 else 0
      acc32 := if s.curAlg = .crc32 then s.acc32 else 0
      hans := if s.hreq = .answered then s.hans else [] } := by
  simp only [forgetUnread, hs, true_and, if_true]

@[simp] theorem forgetUnread_idem (s : State) : forgetUnread (forgetUnread s) = forgetUnread s := by
  by_cases hs : s.seq = .running
  · simp +contextual [forgetUnread, hs]
  · simp only [forgetUnread, hs, false_and, if_false]

/-- The guards of the engine's step read none of the registers without a value. -/
theorem engineGuardsAgree_forgetUnread (s : State) : EngineGuardsAgree s (forgetUnread s) :=
  ⟨rfl, fun hs => ⟨if_pos hs, if_pos hs, if_pos hs, rfl⟩⟩

/-- An outcome whose next state is forgotten. -/
def forgetOutcome : Host.Outcome State Fault Refusal → Host.Outcome State Fault Refusal
  | .next s => .next (forgetUnread s)
  | .fault r => .fault r
  | .refused r => .refused r

@[simp] theorem forgetOutcome_next (s : State) : forgetOutcome (.next s) = .next (forgetUnread s) := rfl

@[simp] theorem forgetOutcome_idem (o : Host.Outcome State Fault Refusal) :
    forgetOutcome (forgetOutcome o) = forgetOutcome o := by
  cases o with
  | next s => simp
  | fault r => rfl
  | refused r => rfl

theorem forgetOutcome_eq_next {o : Host.Outcome State Fault Refusal} {t : State}
    (h : forgetOutcome o = .next t) : ∃ v, o = .next v ∧ t = forgetUnread v := by
  cases o with
  | next v => cases h; exact ⟨v, rfl, rfl⟩
  | fault r => cases h
  | refused r => cases h

theorem forgetOutcome_eq_fault {o : Host.Outcome State Fault Refusal} {f : Fault}
    (h : forgetOutcome o = .fault f) : o = .fault f := by
  cases o with
  | next v => cases h
  | fault r => exact h
  | refused r => cases h

/-! ## The engine and the HashUnit -/

/-- The finish step reads CUR_OP and CUR_ALG, which have a value during a command, and ends the command. -/
theorem finish_forgetUnread (d : Digest) {s : State} (hs : s.seq = .running) :
    forgetUnread (finish d (forgetUnread s)) = forgetUnread (finish d s) := by
  rw [forgetUnread_running hs]
  cases hop : s.curOp <;> simp only [finish, hop] <;> rfl

theorem crc16ByteStep_forgetUnread {s : State} (hs : s.seq = .running) (ha : s.curAlg = .crc16) :
    crc16ByteStep (forgetUnread s) = forgetUnread (crc16ByteStep s) := by
  simp [crc16ByteStep, nextBufByte, forgetUnread, hs, ha]

theorem crc32ByteStep_forgetUnread {s : State} (hs : s.seq = .running) (ha : s.curAlg = .crc32) :
    crc32ByteStep (forgetUnread s) = forgetUnread (crc32ByteStep s) := by
  simp [crc32ByteStep, nextBufByte, forgetUnread, hs, ha]

/-- Outside RUNNING no answer has a value, whether or not its request still stands. -/
theorem forgetUnread_dropRequest {s : State} (hs : s.seq ≠ .running) :
    forgetUnread { s with hreq := .none } = { forgetUnread s with hreq := .none } := by
  simp only [forgetUnread, hs, false_and]

theorem hashFinish_forgetUnread {s : State} (hs : s.seq = .running) (hq : s.hreq = .answered) :
    forgetUnread (hashFinish (forgetUnread s)) = forgetUnread (hashFinish s) := by
  have hans : (forgetUnread s).hans = s.hans := if_pos ⟨hs, hq⟩
  simp only [hashFinish, hans]
  rw [forgetUnread_dropRequest (by simp), forgetUnread_dropRequest (by simp), finish_forgetUnread _ hs]

theorem engineStep_forgetUnread (s : State) :
    forgetUnread (engineStep (forgetUnread s)) = forgetUnread (engineStep s) := by
  refine engineStep_rel (R := fun t u => forgetUnread u = forgetUnread t)
    (engineGuardsAgree_forgetUnread s) (forgetUnread_idem s) (fun hs ha => ?byte16)
    (fun hs ha => ?byte32) (fun hs ha => ?finish16) (fun hs ha => ?finish32) hashFinish_forgetUnread
  case byte16 => rw [crc16ByteStep_forgetUnread hs ha, forgetUnread_idem]
  case byte32 => rw [crc32ByteStep_forgetUnread hs ha, forgetUnread_idem]
  case finish16 =>
    have hacc : (forgetUnread s).acc16 = s.acc16 := if_pos ⟨hs, ha⟩
    rw [crc16Finish, crc16Finish, hacc, finish_forgetUnread _ hs]
  case finish32 =>
    have hacc : (forgetUnread s).acc32 = s.acc32 := if_pos ⟨hs, ha⟩
    rw [crc32Finish, crc32Finish, hacc, finish_forgetUnread _ hs]

/-- A request is pending only during a command, when CUR_ALG and LEN_L have a value. -/
theorem hashUnitStep_forgetUnread {s : State} (hq : s.hreq ≠ .none → s.seq = .running) :
    forgetUnread (hashUnitStep (forgetUnread s)) = forgetUnread (hashUnitStep s) := by
  cases hreq : s.hreq with
  | none | answered => simp [hashUnitStep, hreq]
  | pending =>
    have hs := hq (by simp [hreq])
    have halg : (forgetUnread s).curAlg = s.curAlg := if_pos hs
    have hbuf : bufContents (forgetUnread s) = bufContents s := by simp [bufContents, forgetUnread, hs]
    simp only [hashUnitStep, forgetUnread_hreq, hreq, halg, hbuf]
    cases hashOf s.curAlg (bufContents s) with
    | none => exact forgetUnread_idem s
    | some answer => simp +contextual [forgetUnread, hs]

/-! ## The host -/

@[simp] theorem observeReg_forgetUnread (offset : Nat) (s : State) :
    observeReg offset (forgetUnread s) = forgetUnread (observeReg offset s) := rfl
@[simp] theorem pushReads_forgetUnread (window : Nat) (length : Word) (s : State) :
    pushReads window length (forgetUnread s) = forgetUnread (pushReads window length s) := rfl
@[simp] theorem markRefused_forgetUnread (s : State) :
    markRefused (forgetUnread s) = forgetUnread (markRefused s) := rfl

@[simp] theorem hostBufWrite_forgetUnread (a : Nat) (v : Byte) (s : State) :
    hostBufWrite a v (forgetUnread s) = forgetOutcome (hostBufWrite a v s) := by
  by_cases ha : a < Config.bufSize
  · cases hr : isRunning s <;> simp only [hostBufWrite, if_pos ha, isRunning_forgetUnread, hr] <;> rfl
  · simp only [hostBufWrite, if_neg ha]
    rfl

@[simp] theorem hostBufRead_forgetUnread (a : Nat) (s : State) :
    hostBufRead a (forgetUnread s) = forgetOutcome (hostBufRead a s) := by
  simp only [hostBufRead]
  split_ifs <;> rfl

@[simp] theorem hostRegRead_forgetUnread (offset width : Nat) (s : State) :
    hostRegRead offset width (forgetUnread s) = forgetUnread (hostRegRead offset width s) := by
  simp only [hostRegRead]
  split_ifs <;> rfl

@[simp] theorem regWrite_forgetUnread (offset : Nat) (v : Word) (s : State) :
    regWrite offset v (forgetUnread s) = forgetUnread (regWrite offset v s) := by
  simp only [regWrite]
  split_ifs <;> rfl

/-- The accept of RUN and COMPUTE writes every register its command reads but the answer, which is still
to come. -/
theorem acceptOf_forgetUnread (op : Operation) (alg : AlgorithmKind) {s : State} (hq : s.hreq = .none) :
    forgetUnread (acceptOf op alg (forgetUnread s)) = forgetUnread (acceptOf op alg s) := by
  rw [acceptOf_eq, acceptOf_eq]
  cases alg <;> simp [forgetUnread, isHash, hq]

/-- FORMAT reads the digest held and none of the seven registers. -/
theorem acceptFormat_forgetUnread (alg : AlgorithmKind) {str : State → List Byte} (s : State)
    (hstr : str (forgetUnread s) = str s) :
    forgetUnread (acceptFormat alg str (forgetUnread s)) = forgetUnread (acceptFormat alg str s) := by
  obtain ⟨hv, he⟩ | ⟨hv, hk, he⟩ | ⟨hv, hk, he⟩ := acceptFormat_cases alg str s
  · rw [he, acceptFormat_digestNotValid alg str (s := forgetUnread s) hv]
    rfl
  · rw [he, acceptFormat_digestKindMismatch str (s := forgetUnread s) hv hk]
    rfl
  · rw [he, acceptFormat_held alg str (forgetUnread s) hv hk, hstr]
    exact congrArg (fun t => { writeOut (str s) (clearOut t) with done := true }) (forgetUnread_idem s)

theorem takeCommand_forgetUnread {effect : State → State} {s : State}
    (he : forgetUnread (effect (forgetUnread { s with done := false })) =
      forgetUnread (effect { s with done := false })) :
    forgetOutcome (takeCommand effect (forgetUnread s)) = forgetOutcome (takeCommand effect s) := by
  by_cases hs : s.seq = .idle
  · rw [takeCommand_idle effect s hs, takeCommand_idle effect (forgetUnread s) hs]
    exact congrArg Host.Outcome.next he
  · rw [takeCommand_not_idle effect s hs, takeCommand_not_idle effect (forgetUnread s) hs]
    simp

theorem exec_forgetUnread (i : Instr) {s : State} (hq : s.hreq = .none) :
    forgetOutcome (exec i (forgetUnread s)) = forgetOutcome (exec i s) := by
  rw [← instrOf_operation_algorithm i]
  by_cases hop : i.operation = .format
  · rw [hop, exec_format, exec_format]
    exact takeCommand_forgetUnread (acceptFormat_forgetUnread _ _ (by cases i.algorithm <;> rfl))
  · rw [exec_accept _ _ _ hop, exec_accept _ _ _ hop]
    exact takeCommand_forgetUnread (acceptOf_forgetUnread _ _ hq)

theorem takeWord_forgetUnread (w : Word) {s : State} (hq : s.hreq = .none) :
    forgetOutcome (takeWord w (forgetUnread s)) = forgetOutcome (takeWord w s) := by
  cases hd : decode w with
  | ok i => simpa only [takeWord, hd] using exec_forgetUnread i hq
  | error e => simpa only [takeWord, hd] using takeCommand_forgetUnread (s := s) rfl

/-- A write to CMD is taken only outside RUNNING, where no request is pending or answered. As in
`hostRegWrite`, `t` is `s` without the access. -/
theorem hostRegWrite_forgetUnread (offset width : Nat) (v : Word) {s t : State} (hseq : t.seq = s.seq)
    (hq : t.hreq ≠ .none → t.seq = .running) :
    forgetOutcome (hostRegWrite offset width v (forgetUnread s) (forgetUnread t)) =
      forgetOutcome (hostRegWrite offset width v s t) := by
  by_cases had : regAdmitted offset width = false
  · simp [hostRegWrite, had]
  by_cases ho : offset = offCmd
  · subst ho
    by_cases hr : isRunning s = true
    · simp [hostRegWrite, had, hr]
    · have hnone : t.hreq = .none := not_not.mp (mt hq (hseq ▸ mt (isRunning_iff s).mpr hr))
      simp [hostRegWrite, had, hr, takeWord_forgetUnread v hnone]
  · simp [hostRegWrite, had, ho]

/-- Of the host's accesses only a write to CMD can write one of the seven registers. -/
theorem hostStep_forgetUnread {s : State} (hq : s.hreq ≠ .none → s.seq = .running) :
    forgetOutcome (hostStep (forgetUnread s)) = forgetOutcome (hostStep s) := by
  cases hh : s.hostq with
  | nil => simp [hostStep, hh]
  | cons op rest =>
    have hpop : { forgetUnread s with hostq := rest } = forgetUnread { s with hostq := rest } := rfl
    simp only [hostStep, forgetUnread_hostq, hh]
    rw [hpop]
    cases op with
    | bufWrite a v => simp
    | bufRead a => simp
    | regWrite offset width v => exact hostRegWrite_forgetUnread offset width v rfl hq
    | regRead offset width => simp
    | wait => cases hb : busyBit s <;> simp [hb]
    | readString => simp
    | readDigest => simp

/-! ## The whole step -/

theorem defaultAgent_forgetUnread (s : State) : defaultAgent (forgetUnread s) = defaultAgent s := by
  rw [defaultAgent, defaultAgent, engineEnabled_congr (engineGuardsAgree_forgetUnread s)]
  rfl

theorem nextAgent_forgetUnread (s : State) : nextAgent (forgetUnread s) = nextAgent s := by
  have hsched : (forgetUnread s).sched = s.sched := rfl
  cases hq : s.sched with
  | nil => simp only [nextAgent, hsched, hq, defaultAgent_forgetUnread]
  | cons a rest => simp only [nextAgent, hsched, hq]

/-- A step reads no register without a value before it writes it (70_reset_and_hazards R242). -/
theorem step_forgetUnread {s : State} (hq : s.hreq ≠ .none → s.seq = .running) :
    forgetOutcome (step (forgetUnread s)) = forgetOutcome (step s) := by
  have hturn : takeTurn (forgetUnread s) = forgetUnread (takeTurn s) := rfl
  rw [step, step, nextAgent_forgetUnread, hturn]
  cases nextAgent s with
  | engine => exact congrArg Host.Outcome.next (engineStep_forgetUnread (takeTurn s))
  | hashUnit => exact congrArg Host.Outcome.next (hashUnitStep_forgetUnread (s := takeTurn s) hq)
  | host => exact hostStep_forgetUnread (s := takeTurn s) hq
  | platform => rfl

/-- Settles O51: both steps are, up to what is forgotten, the step of the one state that both states are
without their registers that have no value. -/
theorem registersWithoutAValueAreNeverRead : Obligations.RegistersWithoutAValueAreNeverRead := by
  intro s u hs hu hsu
  have hstep : forgetOutcome (step s) = forgetOutcome (step u) := by
    rw [← step_forgetUnread (fun h => (hs.request h).1), hsu,
      step_forgetUnread (fun h => (hu.request h).1)]
  refine ⟨fun t ht => ?next, fun f hf => ?fault, ?observe⟩
  case next =>
    rw [ht] at hstep
    exact forgetOutcome_eq_next hstep.symm
  case fault =>
    rw [hf] at hstep
    exact forgetOutcome_eq_fault hstep.symm
  case observe =>
    calc observe s = observe (forgetUnread s) := rfl
      _ = observe (forgetUnread u) := by rw [hsu]
      _ = observe u := rfl

/-! ## LEN after the accept -/

theorem finish_setLen (d : Digest) (s : State) (v : Word) :
    finish d { s with len := v } = { finish d s with len := v } := by
  cases hop : s.curOp <;> simp [finish, completeCommand, writeOut, storeDigest, resultBytes, hop]

/-- The engine reads LEN_L and not LEN. -/
theorem engineStep_setLen (s : State) (v : Word) :
    engineStep { s with len := v } = { engineStep s with len := v } :=
  engineStep_rel (R := fun t u => u = { t with len := v }) ⟨rfl, fun _ => ⟨rfl, rfl, rfl, rfl⟩⟩ rfl
    (fun _ _ => rfl) (fun _ _ => rfl) (fun _ _ => finish_setLen _ s v) (fun _ _ => finish_setLen _ s v)
    (fun _ _ => congrArg (fun t : State => { t with hreq := .none }) (finish_setLen _ s v))

/-- The HashUnit reads LEN_L and not LEN. -/
theorem hashUnitStep_setLen (s : State) (v : Word) :
    hashUnitStep { s with len := v } = { hashUnitStep s with len := v } := by
  have hbuf : bufContents { s with len := v } = bufContents s := rfl
  simp only [hashUnitStep, hbuf]
  split <;> rfl

/-- The accept of RUN and COMPUTE latches LEN (40_command_model R105). -/
@[simp] theorem acceptOf_lenL (op : Operation) (alg : AlgorithmKind) (s : State) :
    (acceptOf op alg s).lenL = s.len := by
  rw [acceptOf_eq]
  rfl

/-- Settles O45: LEN is latched at the accept, and setting it commutes with both units' steps. -/
theorem lenWriteDoesNotReachTheCommand : Obligations.LenWriteDoesNotReachTheCommand := by
  intro s v
  refine ⟨fun i hs hop => ?accept, engineStep_setLen s v, hashUnitStep_setLen s v⟩
  case accept =>
    rw [← instrOf_operation_algorithm i, exec_accept _ _ s hop, takeCommand_idle _ s hs]
    exact ⟨_, rfl, acceptOf_lenL _ _ _⟩

end Sys2Proof.Machine
end

section
/-! PROOFS. 40_command_model: the engine's step for every algorithm alike, as a byte taken in or the
command ended. -/

namespace Sys2Proof.Machine

/-! ## The kind of a digest -/

/-- The formatter is defined only for a digest of its kind's length (44_digest_formatter R194). -/
theorem digestBytes_length_of_format {d : Digest} {alg : AlgorithmKind} {str : List Byte}
    (h : format d alg = some str) : (digestBytes d).length = digestLength alg := by
  unfold format at h
  split at h
  case h_1 | h_2 => rfl
  case h_3 | h_4 | h_5 =>
    split_ifs at h with hlen
    exact hlen
  case h_6 => cases h

/-- A string the formatter gives has its kind's length (44_digest_formatter R201). -/
theorem fmtDigest_length_of_format {d : Digest} {alg : AlgorithmKind} {str : List Byte}
    (h : format d alg = some str) : (fmtDigest d).length = stringLength alg := by
  unfold format at h
  split at h
  case h_1 | h_2 => rfl
  case h_3 | h_4 | h_5 =>
    split_ifs at h with hlen
    rw [fmtDigest, fmtBytes_length, hlen]
    rfl
  case h_6 => cases h

theorem digestBytes_compute_length (s : List Byte) (alg : AlgorithmKind) :
    (digestBytes (compute s alg)).length = digestLength alg :=
  digestBytes_length_of_format (format_compute s alg)

/-! ## Bytes taken in -/

/-- The registers of a CRC command after the engine took `bytes` in (41_crc16 R135, 42_crc32 R156). -/
def absorb (bytes : List Byte) (s : State) : State :=
  { s with
    acc16 := if s.curAlg = .crc16 then bytes.foldl crc16Step s.acc16 else s.acc16
    acc32 := if s.curAlg = .crc32 then bytes.foldl crc32Step s.acc32 else s.acc32
    idx := s.idx + BitVec.ofNat 32 bytes.length }

theorem absorb_nil (s : State) : absorb [] s = s := by
  simp [absorb]

theorem absorb_absorb (a b : List Byte) (s : State) : absorb b (absorb a s) = absorb (a ++ b) s := by
  cases ha : s.curAlg <;> simp [absorb, ha, List.foldl_append, BitVec.ofNat_add, BitVec.add_assoc]

theorem crc16ByteStep_eq_absorb {s : State} (ha : s.curAlg = .crc16) :
    crc16ByteStep s = absorb [nextBufByte s] s := by
  simp [crc16ByteStep, absorb, ha]

theorem crc32ByteStep_eq_absorb {s : State} (ha : s.curAlg = .crc32) :
    crc32ByteStep s = absorb [nextBufByte s] s := by
  simp [crc32ByteStep, absorb, ha]

/-! ## The end of a command -/

/-- The digest that the finish step of the command in progress stores (41_crc16 R136, 42_crc32 R157,
43_hash_delegation R173). -/
def digestReady (s : State) : Digest :=
  match s.curAlg with
  | .crc16 => .u16 s.acc16
  | .crc32 => .u32 (s.acc32 ^^^ 0xFFFFFFFF)
  | .md5 | .sha1 | .sha256 => .bytes s.hans

/-- The finish step of the command in progress; a hash command drops its request too. -/
def endCommand (s : State) : State :=
  { finish (digestReady s) s with hreq := if isHash s.curAlg then .none else s.hreq }

/-- When the finish step is the engine's (40_command_model R107). -/
def ReadyToEnd (s : State) : Prop :=
  if isHash s.curAlg then s.hreq = .answered else s.idx = s.lenL

theorem readyToEnd_hash_iff {s : State} (ha : isHash s.curAlg = true) :
    ReadyToEnd s ↔ s.hreq = .answered := by
  rw [ReadyToEnd, if_pos ha]

theorem readyToEnd_crc_iff {s : State} (ha : isHash s.curAlg = false) :
    ReadyToEnd s ↔ s.idx = s.lenL := by
  simp only [ReadyToEnd, ha, Bool.false_eq_true, if_false]

@[simp] theorem endCommand_seq (s : State) : (endCommand s).seq = .idle := finish_seq (digestReady s) s

@[simp] theorem endCommand_done (s : State) : (endCommand s).done = true :=
  finish_done (digestReady s) s

theorem crc16Finish_eq_endCommand {s : State} (ha : s.curAlg = .crc16) :
    crc16Finish s = endCommand s := by
  simp only [crc16Finish, endCommand, digestReady, ha, isHash, Bool.false_eq_true, if_false]
  rw [← finish_hreq]

theorem crc32Finish_eq_endCommand {s : State} (ha : s.curAlg = .crc32) :
    crc32Finish s = endCommand s := by
  simp only [crc32Finish, endCommand, digestReady, ha, isHash, Bool.false_eq_true, if_false]
  rw [← finish_hreq]

theorem hashFinish_eq_endCommand {s : State} (ha : isHash s.curAlg = true) :
    hashFinish s = endCommand s := by
  cases hk : s.curAlg with
  | crc16 | crc32 => simp [hk, isHash] at ha
  | md5 | sha1 | sha256 => simp [hashFinish, endCommand, digestReady, hk, isHash]

/-- The engine holds, takes in one byte of a CRC, or ends the command. -/
theorem engineStep_absorb_or_end (s : State) :
    engineStep s = s ∨
    (s.seq = .running ∧ isHash s.curAlg = false ∧ s.idx < s.lenL ∧
      engineStep s = absorb [nextBufByte s] s) ∨
    (s.seq = .running ∧ ReadyToEnd s ∧ engineStep s = endCommand s) := by
  obtain he | ⟨hs, ha, hi, he⟩ | ⟨hs, ha, hi, he⟩ | ⟨hs, ha, hi, he⟩ | ⟨hs, ha, hi, he⟩ |
    ⟨hs, ha, hq, he⟩ := engineStep_cases s
  · exact .inl he
  · exact .inr (.inl ⟨hs, by rw [ha]; rfl, hi, he.trans (crc16ByteStep_eq_absorb ha)⟩)
  · exact .inr (.inl ⟨hs, by rw [ha]; rfl, hi, he.trans (crc32ByteStep_eq_absorb ha)⟩)
  · exact .inr (.inr ⟨hs, (readyToEnd_crc_iff (by rw [ha]; rfl)).mpr hi,
      he.trans (crc16Finish_eq_endCommand ha)⟩)
  · exact .inr (.inr ⟨hs, (readyToEnd_crc_iff (by rw [ha]; rfl)).mpr hi,
      he.trans (crc32Finish_eq_endCommand ha)⟩)
  · exact .inr (.inr ⟨hs, (readyToEnd_hash_iff ha).mpr hq, he.trans (hashFinish_eq_endCommand ha)⟩)

/-- A CRC command with bytes left takes in the next. -/
theorem engineStep_absorb {s : State} (hs : s.seq = .running) (ha : isHash s.curAlg = false)
    (hi : s.idx < s.lenL) : engineStep s = absorb [nextBufByte s] s := by
  cases hk : s.curAlg with
  | crc16 => rw [engineStep_crc16 hs hk, if_pos hi, crc16ByteStep_eq_absorb hk]
  | crc32 => rw [engineStep_crc32 hs hk, if_pos hi, crc32ByteStep_eq_absorb hk]
  | md5 | sha1 | sha256 => simp [hk, isHash] at ha

theorem engineStep_end {s : State} (hs : s.seq = .running) (hr : ReadyToEnd s) :
    engineStep s = endCommand s := by
  cases hk : s.curAlg with
  | crc16 =>
    have hi : s.idx = s.lenL := (readyToEnd_crc_iff (by rw [hk]; rfl)).mp hr
    rw [engineStep_crc16 hs hk, if_neg (idx_not_lt_of_eq hi), if_pos hi, crc16Finish_eq_endCommand hk]
  | crc32 =>
    have hi : s.idx = s.lenL := (readyToEnd_crc_iff (by rw [hk]; rfl)).mp hr
    rw [engineStep_crc32 hs hk, if_neg (idx_not_lt_of_eq hi), if_pos hi, crc32Finish_eq_endCommand hk]
  | md5 | sha1 | sha256 =>
    have ha : isHash s.curAlg = true := by rw [hk]; rfl
    rw [engineStep_hash hs ha, if_pos ((readyToEnd_hash_iff ha).mp hr), hashFinish_eq_endCommand ha]

/-- The digest ready is one of the command's kind, an answer being of its kind's length. -/
theorem format_digestReady {s : State}
    (hans : isHash s.curAlg = true → s.hans.length = digestLength s.curAlg) :
    format (digestReady s) s.curAlg = some (fmtDigest (digestReady s)) := by
  cases hk : s.curAlg with
  | crc16 | crc32 => simp only [digestReady, hk]; rfl
  | md5 | sha1 | sha256 =>
    rw [hk] at hans
    simp only [digestReady, hk]
    exact if_pos (hans rfl)

/-! ## The answer of the HashUnit -/

/-- A pending request of a hash kind is answered (43_hash_delegation R171). -/
theorem hashUnitStep_pending {s : State} {answer : List Byte} (hq : s.hreq = .pending)
    (ha : hashOf s.curAlg (bufContents s) = some answer) :
    hashUnitStep s = { s with hans := answer, hreq := .answered } := by
  simp only [hashUnitStep, hq, ha]

/-! ## The finish step after its accept -/

/-- The result registers as the accept of RUN and COMPUTE leaves them (40_command_model R105). -/
structure ResultsCleared (s : State) : Prop where
  dig : s.dig = Vector.replicate 32 0
  outc : s.outc = Vector.replicate 64 0
  outlen : s.outlen = 0

/-- Over cleared results the finish step leaves the result bytes, and after RUN those of the string, alone in
the windows. -/
theorem finish_cleared (d : Digest) {s : State} (hc : ResultsCleared s) :
    finish d s = { s with
      dig := windowOf 32 (resultBytes s s.freeCtr (digestBytes d))
      dlen := BitVec.ofNat 32 (digestBytes d).length
      outc := if s.curOp = .run then windowOf 64 (resultBytes s (s.freeCtr + 32) (fmtDigest d))
        else Vector.replicate 64 0
      outlen := if s.curOp = .run then BitVec.ofNat 32 (fmtDigest d).length else 0
      dkind := s.curAlg, dvalid := true, done := true, seq := .idle, tainted := false
      freeCtr := if s.tainted then s.freeCtr + 96 else s.freeCtr } := by
  have hdig : ∀ l, writeFront s.dig l = windowOf 32 l := fun l => hc.dig ▸ writeFront_zero 32 l
  have houtc : ∀ l, writeFront s.outc l = windowOf 64 l := fun l => hc.outc ▸ writeFront_zero 64 l
  cases hop : s.curOp with
  | run => simp [finish, completeCommand, storeDigest, writeOut, hop, hdig, houtc]
  | compute | format =>
    simp [finish, completeCommand, storeDigest, hop, hdig, hc.outc, hc.outlen]

/-- Without a taint the result bytes are those of the digest and of its string. -/
theorem finish_cleared_clean (d : Digest) {s : State} (ht : s.tainted = false) (hc : ResultsCleared s) :
    finish d s = { s with
      dig := windowOf 32 (digestBytes d), dlen := BitVec.ofNat 32 (digestBytes d).length
      outc := if s.curOp = .run then windowOf 64 (fmtDigest d) else Vector.replicate 64 0
      outlen := if s.curOp = .run then BitVec.ofNat 32 (fmtDigest d).length else 0
      dkind := s.curAlg, dvalid := true, done := true, seq := .idle } := by
  simp [finish_cleared d hc, resultBytes_clean _ _ _ ht, ht]

/-- The end of an untainted command whose digest is the one of `bytes` (40_command_model R108, R109). -/
theorem endCommand_compute {s : State} {alg : AlgorithmKind} {bytes : List Byte} (halg : s.curAlg = alg)
    (ht : s.tainted = false) (hc : ResultsCleared s) (hd : digestReady s = compute bytes alg) :
    endCommand s = { s with
      dig := windowOf 32 (digestBytes (compute bytes alg)), dlen := BitVec.ofNat 32 (digestLength alg)
      outc := if s.curOp = .run then windowOf 64 (fmtDigest (compute bytes alg))
        else Vector.replicate 64 0
      outlen := if s.curOp = .run then BitVec.ofNat 32 (stringLength alg) else 0
      dkind := alg, dvalid := true, done := true, seq := .idle
      hreq := if isHash alg then .none else s.hreq } := by
  rw [endCommand, hd, finish_cleared_clean _ ht hc, digestBytes_compute_length, fmtDigest_compute_length,
    halg]

/-! ## The string of a FORMAT -/

/-- A string over the cleared window (40_command_model R106). -/
theorem writeOut_clearOut (str : List Byte) (s : State) :
    writeOut str (clearOut s) =
      { s with outc := windowOf 64 str, outlen := BitVec.ofNat 32 str.length } :=
  congrArg (fun outc => { s with outc := outc, outlen := BitVec.ofNat 32 str.length })
    (writeFront_zero 64 str)

/-- The digest held, read out of DIG, is one that its kind's formatter is defined for (log 11). -/
theorem format_digestInDig (alg : AlgorithmKind) (s : State) :
    format (digestInDig alg s) alg = some (fmtDigest (digestInDig alg s)) := by
  cases alg with
  | crc16 | crc32 => rfl
  | md5 | sha1 | sha256 => exact if_pos (by simp [digBytes])

theorem digestInDig_setDone (alg : AlgorithmKind) (s : State) (done : Bool) :
    digestInDig alg { s with done := done } = digestInDig alg s := by
  cases alg <;> rfl

/-- FORMAT in IDLE with the digest of its kind held writes its string and DONE (40_command_model R106). -/
theorem exec_format_held {alg : AlgorithmKind} {s : State} (hs : s.seq = .idle) (hv : s.dvalid = true)
    (hk : s.dkind = alg) :
    exec (instrOf .format alg) s = .next { s with
      done := true, outlen := BitVec.ofNat 32 (stringLength alg)
      outc := windowOf 64 (fmtDigest (digestInDig alg s)) } := by
  rw [exec_format, takeCommand_idle _ s hs, acceptFormat_held alg _ { s with done := false } hv hk,
    writeOut_clearOut, digestInDig_setDone, fmtDigest_length_of_format (format_digestInDig alg s)]

end Sys2Proof.Machine
end

section
/-! PROOFS. The invariant of the machine: what it says of a command in progress, and that every step of every
agent keeps it. -/

namespace Sys2Proof.Machine

/-! ## What the invariant says of a state in and outside RUNNING -/

theorem Inv.request_none {s : State} (h : Inv s) (hs : s.seq ≠ .running) : s.hreq = .none :=
  not_not.mp (mt (fun hq => (h.request hq).1) hs)

theorem Inv.tainted_false {s : State} (h : Inv s) (hs : s.seq ≠ .running) : s.tainted = false :=
  Bool.eq_false_of_not_eq_true (mt (fun ht => (h.taint ht).1) hs)

theorem Inv.fcode_none {s : State} (h : Inv s) (hs : s.seq ≠ .halted) : s.fcode = .none :=
  not_not.mp (mt h.fatal.mpr hs)

/-- Nothing is stored before the finish step (40_command_model R105). -/
theorem Inv.resultsCleared {s : State} (h : Inv s) (hs : s.seq = .running) : ResultsCleared s := by
  obtain ⟨-, hv, -⟩ := h.running hs
  obtain ⟨-, hdlen, houtlen⟩ := h.noDigest hv
  refine ⟨Vector.ext fun i hi => ?_, Vector.ext fun i hi => ?_, houtlen⟩
  · rw [h.digTail i hi (by simp [hdlen]), Vector.getElem_replicate]
  · rw [h.outTail i hi (by simp [houtlen]), Vector.getElem_replicate]

theorem Inv.format_digestReady {s : State} (h : Inv s) (hr : ReadyToEnd s) :
    format (digestReady s) s.curAlg = some (fmtDigest (digestReady s)) :=
  Machine.format_digestReady fun ha => h.answer ((readyToEnd_hash_iff ha).mp hr)

/-! ## The windows of a result -/

/-- From its length on, a list written over a cleared window leaves 0x00. -/
theorem windowOf_tail {n : Nat} (l : List Byte) {i : Nat} (hi : i < n) (hl : l.length ≤ i) :
    (windowOf n l)[i] = 0 := by
  rw [windowOf_getElem, List.getD_eq_default _ _ hl]

theorem isHexCode_windowOf {n : Nat} {d : Digest} {i : Nat} (hi : i < n) (hl : i < (fmtDigest d).length) :
    isHexCode (windowOf n (fmtDigest d))[i] = true := by
  rw [windowOf_getElem, List.getD_eq_getElem _ _ hl]
  exact fmtDigest_isHexCode d _ (List.getElem_mem hl)

theorem toNat_digestLength (alg : AlgorithmKind) :
    (BitVec.ofNat 32 (digestLength alg)).toNat = digestLength alg := by
  cases alg <;> rfl

theorem toNat_stringLength (alg : AlgorithmKind) :
    (BitVec.ofNat 32 (stringLength alg)).toNat = stringLength alg := by
  cases alg <;> rfl

/-! ## The steps that keep the invariant, one by one -/

/-- In IDLE, with no request, no fault code and no taint, the invariant is one of the results. -/
theorem Inv.of_idle {s : State} (hs : s.seq = .idle) (hq : s.hreq = .none) (ht : s.tainted = false)
    (hf : s.fcode = .none) (memory : Memory.wf s.buf = true)
    (noDigest : s.dvalid = false → s.dkind = .crc16 ∧ s.dlen = 0 ∧ s.outlen = 0)
    (digest : s.dvalid = true →
      s.dlen.toNat = digestLength s.dkind ∧ (s.outlen = 0 ∨ s.outlen.toNat = stringLength s.dkind))
    (done : s.done = true → s.dvalid = true)
    (digTail : ∀ i (h : i < 32), s.dlen.toNat ≤ i → s.dig[i] = 0)
    (outTail : ∀ i (h : i < 64), s.outlen.toNat ≤ i → s.outc[i] = 0)
    (string : marksClear s = true →
      ∀ i (h : i < 64), i < s.outlen.toNat → isHexCode s.outc[i] = true) : Inv s where
  memory := memory
  fatal := by simp [hs, hf]
  request := by simp [hq]
  hashWaits := by simp [hs]
  answer := by simp [hq]
  running := by simp [hs]
  progress := by simp [hs]
  noDigest := noDigest
  digest := digest
  done := fun h => ⟨done h, hs⟩
  digTail := digTail
  outTail := outTail
  taint := by simp [ht]
  string := string

/-- LEN, what the host does and has read, and the schedule are no part of it. -/
theorem Inv.setHost {s : State} (h : Inv s) (len : Word) (hostq : List HostOp) (reads : List HostRead)
    (sched : List Agent) :
    Inv { s with len := len, hostq := hostq, reads := reads, sched := sched } :=
  { h with }

theorem Inv.takeTurn {s : State} (h : Inv s) : Inv (takeTurn s) :=
  h.setHost s.len s.hostq s.reads s.sched.tail

theorem Inv.absorb {s : State} (h : Inv s) (b : Byte) (hi : s.idx < s.lenL) : Inv (absorb [b] s) :=
  have hle : s.idx + 1 ≤ s.lenL := by bv_omega
  { h with progress := fun _ _ => hle }

/-- The finish step, tainted or not. -/
theorem Inv.endCommand {s : State} (h : Inv s) (hs : s.seq = .running) (hr : ReadyToEnd s) :
    Inv (endCommand s) := by
  have hformat := h.format_digestReady hr
  have hreq : (if isHash s.curAlg then HashRequest.none else s.hreq) = .none := by
    split_ifs with ha
    · rfl
    · exact not_not.mp (mt (fun hq => (h.request hq).2) ha)
  rw [Machine.endCommand, finish_cleared _ (h.resultsCleared hs), hreq,
    digestBytes_length_of_format hformat, fmtDigest_length_of_format hformat]
  refine .of_idle rfl rfl rfl (h.fcode_none (by simp [hs])) h.memory (by simp) (fun _ => ?digest) (by simp)
    (fun i hi hl => ?digTail) (fun i hi hl => ?outTail) (fun hm i hi hl => ?string)
  case digest =>
    refine ⟨toNat_digestLength _, ?_⟩
    by_cases hop : s.curOp = .run
    · simp only [hop, if_true]
      exact .inr (toNat_stringLength _)
    · exact .inl (if_neg hop)
  case digTail =>
    rw [toNat_digestLength, ← digestBytes_length_of_format hformat] at hl
    exact windowOf_tail _ hi (by rwa [resultBytes_length])
  case outTail =>
    by_cases hop : s.curOp = .run
    · simp only [hop, if_true, toNat_stringLength] at hl ⊢
      exact windowOf_tail _ hi (by rwa [resultBytes_length, fmtDigest_length_of_format hformat])
    · simp [hop]
  case string =>
    have ht : s.tainted = false :=
      Bool.eq_false_of_not_eq_true fun ht => absurd (hm.symm.trans (h.taint ht).2) (by simp)
    by_cases hop : s.curOp = .run
    · simp only [hop, if_true, toNat_stringLength, resultBytes_clean _ _ _ ht] at hl ⊢
      exact isHexCode_windowOf hi (by rwa [fmtDigest_length_of_format hformat])
    · simp [hop] at hl

theorem Inv.hashAnswered {s : State} (h : Inv s) {answer : List Byte} (hq : s.hreq = .pending)
    (ha : hashOf s.curAlg (bufContents s) = some answer) :
    Inv { s with hans := answer, hreq := .answered } :=
  { h with
    request := fun _ => h.request (by simp [hq])
    hashWaits := fun _ _ => by simp
    answer := fun _ => hashOf_length ha }

theorem Inv.bufWrite {s : State} (h : Inv s) {a : Nat} (ha : a < Config.bufSize) (v : Byte) :
    Inv { s with buf := s.buf.write a v } :=
  { h with memory := Memory.wf_write s.buf a v h.memory ha }

/-- A model-only fault sets a mark, and taints the command in progress, if there is one. -/
theorem Inv.mark {s : State} (h : Inv s) {c r : Bool} (hmark : (c || r) = true) :
    Inv { s with cfault := c, refused := r, tainted := s.tainted || isRunning s } := by
  have hmarks : (!c && !r) = false := by rw [← Bool.not_or, hmark]; rfl
  exact { h with
    taint := fun ht => ⟨(Bool.or_eq_true_iff.mp ht).elim (fun ht => (h.taint ht).1) (isRunning_iff s).mp,
      hmarks⟩
    string := fun hm => absurd (hmarks.symm.trans hm) (by simp) }

theorem Inv.markContractFault {s : State} (h : Inv s) : Inv (markContractFault s) :=
  h.mark (Bool.true_or _)

theorem Inv.markRefused {s : State} (h : Inv s) : Inv (markRefused s) :=
  h.mark (Bool.or_true _)

/-- A fatal event in IDLE (60_exceptions R218). -/
theorem Inv.raiseFatal {s : State} (h : Inv s) (hs : s.seq = .idle) {c : FaultCode} (hc : c ≠ .none) :
    Inv (raiseFatal c { s with done := false }) :=
  { h with
    fatal := by simp [hc]
    request := fun hq => absurd (h.request_none (by simp [hs])) hq
    hashWaits := by simp
    running := by simp
    progress := by simp
    done := by simp
    taint := fun ht => absurd (h.tainted_false (by simp [hs])) (by simpa using ht) }

/-- The accept of RUN and COMPUTE in IDLE (40_command_model R105). -/
theorem Inv.accept {s : State} (h : Inv s) (hs : s.seq = .idle) {op : Operation} (hop : op ≠ .format)
    (alg : AlgorithmKind) : Inv (acceptOf op alg { s with done := false }) := by
  have hnone : s.hreq = .none := h.request_none (by simp [hs])
  rw [acceptOf_eq]
  exact {
    memory := h.memory
    fatal := by simp [h.fcode_none (s := s) (by simp [hs])]
    request := by simp [hnone]
    hashWaits := by simp +contextual
    answer := by cases isHash alg <;> simp [hnone]
    running := by simp [hop]
    progress := fun _ _ => Nat.zero_le _
    noDigest := by simp
    digest := by simp
    done := by simp
    digTail := by simp
    outTail := by simp
    taint := by simp
    string := by simp }

/-- The accept of FORMAT with the digest of its kind held (40_command_model R106). -/
theorem Inv.formatHeld {s : State} (h : Inv s) (hs : s.seq = .idle) (hv : s.dvalid = true) :
    Inv { writeOut (fmtDigest (digestInDig s.dkind s)) (clearOut { s with done := false }) with
      done := true } := by
  have hlen := fmtDigest_length_of_format (format_digestInDig s.dkind s)
  rw [writeOut_clearOut, hlen]
  exact { h with
    noDigest := fun hn => absurd (hv.symm.trans hn) (by simp)
    digest := fun _ => ⟨(h.digest hv).1, .inr (toNat_stringLength _)⟩
    running := fun hr => absurd (hs.symm.trans hr) (by simp)
    done := fun _ => ⟨hv, hs⟩
    outTail := fun i hi hl => windowOf_tail _ hi (by simpa only [hlen, toNat_stringLength] using hl)
    string := fun _ i hi hl =>
      isHexCode_windowOf hi (by simpa only [hlen, toNat_stringLength] using hl) }

/-- At reset, whatever BUF, the marks and the host hold. -/
theorem Inv.reset {buf : Memory} (hbuf : Memory.wf buf = true) (cfault refused : Bool) (freeCtr : Nat)
    (hostq : List HostOp) (reads : List HostRead) (sched : List Agent) :
    Inv { State.reset with
      buf := buf, cfault := cfault, refused := refused, freeCtr := freeCtr
      hostq := hostq, reads := reads, sched := sched } := by
  refine .of_idle rfl rfl rfl rfl hbuf ?_ ?_ ?_ ?_ ?_ ?_ <;> simp [State.reset]

/-! ## Every step of every agent keeps the invariant -/

theorem Inv.engineStep {s : State} (h : Inv s) : Inv (engineStep s) := by
  obtain he | ⟨-, -, hi, he⟩ | ⟨hs, hr, he⟩ := engineStep_absorb_or_end s
  · rwa [he]
  · rw [he]; exact h.absorb _ hi
  · rw [he]; exact h.endCommand hs hr

theorem Inv.hashUnitStep {s : State} (h : Inv s) : Inv (hashUnitStep s) := by
  obtain he | ⟨answer, hq, -, ha, he⟩ := hashUnitStep_cases s
  · rwa [he]
  · rw [he]; exact h.hashAnswered hq ha

theorem Inv.takeWord {s t : State} (h : Inv s) {w : Word} (ht : takeWord w s = .next t) : Inv t := by
  by_cases hs : s.seq = .idle
  · obtain ⟨c, hc, rfl⟩ | ⟨op, alg, hop, -, rfl⟩ | ⟨alg, hv, rfl, -, rfl⟩ := takeWord_idle_cases hs ht
    · exact h.raiseFatal hs hc
    · exact h.accept hs hop alg
    · exact h.formatHeld hs hv
  · rw [takeWord_not_idle w s hs] at ht
    cases ht
    exact h

theorem Inv.hostStep {s t : State} (h : Inv s) (ht : hostStep s = .next t) : Inv t := by
  have hpop : ∀ rest, Inv { s with hostq := rest } := fun rest => h.setHost s.len rest s.reads s.sched
  obtain he | ⟨a, v, rest, -, ha, rfl⟩ | ⟨rest, rfl⟩ | ⟨w, rest, -, -, hw⟩ := hostStep_cases ht
  · exact he ▸ h.setHost t.len t.hostq t.reads s.sched
  · have hwrite := (hpop rest).bufWrite ha v
    split_ifs
    · exact hwrite.markContractFault
    · exact hwrite
  · exact (hpop rest).markRefused
  · exact (hpop rest).takeWord hw

/-- Settles O54: the agents' steps are taken one by one, each from the state with the turn taken off. -/
theorem stepKeepsTheInvariant : Obligations.StepKeepsTheInvariant := by
  intro s t h ht
  obtain ⟨-, rfl⟩ | ⟨-, rfl⟩ | ⟨-, hhost⟩ | ⟨-, rfl⟩ := step_cases ht
  · exact h.takeTurn.engineStep
  · exact h.takeTurn.hashUnitStep
  · exact h.takeTurn.hostStep hhost
  · exact Inv.reset h.memory _ _ _ _ _ _

end Sys2Proof.Machine
end

section
/-! PROOFS. The progress of a command, kept by every step of every agent, and the result it ends with
(41_crc16 R136, 42_crc32 R157, 43_hash_delegation R171, 40_command_model R109). -/

namespace Sys2Proof.Machine

/-! ## The accumulators as folds -/

theorem crc16_append (a b : List Byte) : crc16 (a ++ b) = b.foldl crc16Step (crc16 a) :=
  List.foldl_append

/-- The complement of an accumulator is the CRC-32 when the accumulator is the fold (42_crc32 R153). -/
theorem complement_eq_crc32_iff (acc : BitVec 32) (l : List Byte) :
    acc ^^^ 0xFFFFFFFF = crc32 l ↔ acc = l.foldl crc32Step 0xFFFFFFFF :=
  BitVec.xor_left_inj _

/-- A byte below LEN_L leaves IDX room to count it. -/
theorem toNat_idx_succ {i n : Word} (h : i < n) : (i + 1).toNat = i.toNat + 1 := by
  bv_omega

/-! ## The steps that keep the progress, one by one -/

/-- Outside RUNNING there is no command. -/
theorem Progress.of_not_running {s : State} (hs : s.seq ≠ .running) : Progress s :=
  ⟨fun h => absurd h hs, fun h => absurd h hs, fun h => absurd h hs⟩

/-- Of a tainted command nothing is said. -/
theorem Progress.of_tainted {s : State} (ht : s.seq = .running → s.tainted = true) : Progress s := by
  refine ⟨fun h hf => ?_, fun h hf => ?_, fun h hf => ?_⟩ <;> simp [ht h] at hf

theorem Progress.setHost {s : State} (h : Progress s) (len : Word) (hostq : List HostOp)
    (reads : List HostRead) (sched : List Agent) :
    Progress { s with len := len, hostq := hostq, reads := reads, sched := sched } :=
  { h with }

theorem Progress.takeTurn {s : State} (h : Progress s) : Progress (takeTurn s) :=
  h.setHost s.len s.hostq s.reads s.sched.tail

/-- The byte step takes in the byte at IDX, the one after those before IDX. -/
theorem Progress.absorb {s : State} (h : Progress s) (hi : s.idx < s.lenL) :
    Progress (absorb [nextBufByte s] s) := by
  have hrange : Memory.range s.buf 0 (s.idx + 1).toNat =
      Memory.range s.buf 0 s.idx.toNat ++ [nextBufByte s] := by
    rw [toNat_idx_succ hi, Memory.range_succ, Nat.zero_add, nextBufByte]
  refine ⟨fun hs ht ha => ?crc16, fun hs ht ha => ?crc32, fun hs ht hq => h.hash hs ht hq⟩
  case crc16 =>
    calc (Machine.absorb [nextBufByte s] s).acc16
        = [nextBufByte s].foldl crc16Step s.acc16 := if_pos ha
      _ = Machine.crc16 (Memory.range s.buf 0 (s.idx + 1).toNat) := by
        rw [hrange, crc16_append, h.crc16 hs ht ha]
  case crc32 =>
    have hacc := (complement_eq_crc32_iff _ _).mp (h.crc32 hs ht ha)
    refine (complement_eq_crc32_iff _ _).mpr ?_
    calc (Machine.absorb [nextBufByte s] s).acc32
        = [nextBufByte s].foldl crc32Step s.acc32 := if_pos ha
      _ = (Memory.range s.buf 0 (s.idx + 1).toNat).foldl crc32Step 0xFFFFFFFF := by
        rw [hrange, List.foldl_append, hacc]

theorem Progress.engineStep {s : State} (h : Progress s) : Progress (engineStep s) := by
  obtain he | ⟨-, -, hi, he⟩ | ⟨-, -, he⟩ := engineStep_absorb_or_end s
  · rwa [he]
  · rw [he]; exact h.absorb hi
  · rw [he]; exact .of_not_running (by simp)

theorem Progress.hashUnitStep {s : State} (h : Progress s) : Progress (hashUnitStep s) := by
  obtain he | ⟨answer, -, -, ha, he⟩ := hashUnitStep_cases s
  · rwa [he]
  · rw [he]; exact { h with hash := fun _ _ _ => ha }

/-- The accept starts from no byte, with no answer (40_command_model R105). -/
theorem Progress.accept {s : State} (hq : s.hreq = .none) (op : Operation) (alg : AlgorithmKind) :
    Progress (acceptOf op alg s) := by
  rw [acceptOf_eq]
  refine ⟨fun _ _ ha => if_pos ha, fun _ _ ha => ?crc32, fun _ _ hans => ?hash⟩
  case crc32 => exact (complement_eq_crc32_iff _ _).mpr (if_pos ha)
  case hash => cases hk : isHash alg <;> simp [hk, hq] at hans

theorem Progress.takeWord {s t : State} (h : Progress s) (hq : s.hreq = .none)
    {w : Word} (ht : takeWord w s = .next t) : Progress t := by
  by_cases hidle : s.seq = .idle
  · obtain ⟨c, -, rfl⟩ | ⟨op, alg, -, -, rfl⟩ | ⟨alg, -, -, -, rfl⟩ := takeWord_idle_cases hidle ht
    · exact .of_not_running (by simp)
    · exact .accept (s := { s with done := false }) hq op alg
    · exact .of_not_running (by simp [hidle])
  · rw [takeWord_not_idle w s hidle] at ht
    cases ht
    exact h

theorem Progress.hostStep {s t : State} (h : Progress s) (hinv : Inv s) (ht : hostStep s = .next t) :
    Progress t := by
  obtain he | ⟨a, v, rest, -, -, rfl⟩ | ⟨rest, rfl⟩ | ⟨w, rest, -, hs, hw⟩ := hostStep_cases ht
  · exact he ▸ h.setHost t.len t.hostq t.reads s.sched
  · split_ifs with hr
    · exact .of_tainted fun hs => Bool.or_eq_true_iff.mpr (.inr ((isRunning_iff _).mpr hs))
    · exact .of_not_running (by simpa using hr)
  · exact .of_tainted fun hs => Bool.or_eq_true_iff.mpr (.inr ((isRunning_iff _).mpr hs))
  · exact (h.setHost s.len rest s.reads s.sched).takeWord (hinv.request_none hs) hw

/-- Settles O55: a byte step adds the byte it counts, an answer is of the whole buffer, and the host's faults
taint the command. -/
theorem stepKeepsProgress : Obligations.StepKeepsProgress := by
  intro s t hinv h ht
  obtain ⟨-, rfl⟩ | ⟨-, rfl⟩ | ⟨-, hhost⟩ | ⟨-, rfl⟩ := step_cases ht
  · exact h.takeTurn.engineStep
  · exact h.takeTurn.hashUnitStep
  · exact h.takeTurn.hostStep hinv.takeTurn hhost
  · exact .of_not_running (by simp [State.reset])

/-! ## The step that ends a command -/

/-- A command that ends has its whole buffer taken in, or its answer. -/
theorem Progress.digestReady_eq {s : State} (h : Progress s) (hs : s.seq = .running)
    (ht : s.tainted = false) (hr : ReadyToEnd s) :
    digestReady s = compute (bufContents s) s.curAlg := by
  cases ha : s.curAlg with
  | crc16 =>
    have hi : s.idx = s.lenL := (readyToEnd_crc_iff (by rw [ha]; rfl)).mp hr
    simp only [digestReady, ha, compute, h.crc16 hs ht ha, hi, bufContents]
  | crc32 =>
    have hi : s.idx = s.lenL := (readyToEnd_crc_iff (by rw [ha]; rfl)).mp hr
    simp only [digestReady, ha, compute, h.crc32 hs ht ha, hi, bufContents]
  | md5 | sha1 | sha256 =>
    have hans := h.hash hs ht ((readyToEnd_hash_iff (by rw [ha]; rfl)).mp hr)
    rw [ha] at hans
    simp only [digestReady, ha, compute, ← Option.some.inj hans]

/-- While RUNNING no access of the host ends the command (40_command_model R103). -/
theorem hostStep_running {s t : State} (hs : s.seq = .running) (ht : hostStep s = .next t) :
    t.seq = .running := by
  obtain he | ⟨a, v, rest, -, -, rfl⟩ | ⟨rest, rfl⟩ | ⟨w, rest, -, hn, -⟩ := hostStep_cases ht
  · rw [he]; exact hs
  · split_ifs <;> exact hs
  · exact hs
  · exact absurd hs hn

theorem hashUnitStep_seq (s : State) : (hashUnitStep s).seq = s.seq := by
  obtain he | ⟨answer, -, -, -, he⟩ := hashUnitStep_cases s <;> rw [he]

/-- Only the finish step ends a command, reset apart. -/
theorem step_ends_command {s t : State} (hs : s.seq = .running) (hp : nextAgent s ≠ .platform)
    (ht : step s = .next t) (hend : t.seq ≠ .running) :
    ReadyToEnd s ∧ t = endCommand (takeTurn s) := by
  have hs' : (takeTurn s).seq = .running := hs
  obtain ⟨-, rfl⟩ | ⟨-, rfl⟩ | ⟨-, hhost⟩ | ⟨hp', -⟩ := step_cases ht
  · obtain he | ⟨-, -, -, he⟩ | ⟨-, hr, he⟩ := engineStep_absorb_or_end (takeTurn s)
    · exact absurd (by rw [he]; exact hs) hend
    · exact absurd (by rw [he]; exact hs) hend
    · exact ⟨hr, he⟩
  · exact absurd (by rw [hashUnitStep_seq]; exact hs) hend
  · exact absurd (hostStep_running hs' hhost) hend
  · exact absurd hp' hp

/-- Settles O56: the step that leaves RUNNING is the finish step, over cleared results, and the digest it
stores is the one `compute` gives. -/
theorem finishStoresTheDigestOfTheBuffer : Obligations.FinishStoresTheDigestOfTheBuffer := by
  intro s t hinv h hs ht hp hstep hend
  obtain ⟨hr, rfl⟩ := step_ends_command hs hp hstep hend
  have hdigest := h.takeTurn.digestReady_eq hs ht hr
  rw [endCommand_compute (s := takeTurn s) rfl ht (hinv.takeTurn.resultsCleared hs) hdigest]
  refine ⟨rfl, rfl, rfl, rfl, rfl, toNat_digestLength _, fun hop => ⟨if_pos hop, ?outlen⟩,
    fun hop => ⟨if_neg (by simp [hop]), if_neg (by simp [hop])⟩⟩
  case outlen => exact (congrArg _ (if_pos hop)).trans (toNat_stringLength _)

/-! ## Launch -/

/-- Settles O53: a launch is the reset state with a host program, a buffer and a schedule. -/
theorem launchMeetsTheInvariant : Obligations.LaunchMeetsTheInvariant := by
  intro program buf sched hbuf
  exact ⟨Inv.reset hbuf _ _ _ _ _ _, .of_not_running (by simp [launch, State.reset])⟩

end Sys2Proof.Machine
end

section
/-! PROOFS. Whole commands under the default order (log 5): the engine takes in the bytes of a CRC one by one,
the HashUnit answers a hash, and the engine ends the command (40_command_model R109, R110). -/

namespace Sys2Proof.Machine

/-! ## Single steps under the default order -/

theorem engineEnabled_of_readyToEnd {s : State} (hs : s.seq = .running) (hr : ReadyToEnd s) :
    engineEnabled s = true := by
  cases ha : s.curAlg <;> simp_all [engineEnabled, ReadyToEnd, isHash]

theorem step_end {s : State} (hs : s.seq = .running) (hsched : s.sched = []) (hr : ReadyToEnd s) :
    step s = .next (endCommand s) := by
  rw [step_engine hsched (engineEnabled_of_readyToEnd hs hr), engineStep_end hs hr]

theorem step_absorb {s : State} (hs : s.seq = .running) (hsched : s.sched = [])
    (ha : isHash s.curAlg = false) (hi : s.idx < s.lenL) :
    step s = .next (absorb [nextBufByte s] s) := by
  have hle : s.idx ≤ s.lenL := BitVec.le_of_lt hi
  have henabled : engineEnabled s = true := by
    cases hk : s.curAlg <;> simp_all [engineEnabled, isHash]
  rw [step_engine hsched henabled, engineStep_absorb hs ha hi]

/-- The HashUnit answers for the hash kinds what `compute` gives (43_hash_delegation R171). -/
theorem hashOf_eq_compute {alg : AlgorithmKind} (ha : isHash alg = true) (s : List Byte) :
    hashOf alg s = some (digestBytes (compute s alg)) := by
  cases alg with
  | crc16 | crc32 => simp [isHash] at ha
  | md5 | sha1 | sha256 => rfl

/-- A hash command with its answer (43_hash_delegation R171). -/
def answerRequest (s : State) : State :=
  { s with hans := digestBytes (compute (bufContents s) s.curAlg), hreq := .answered }

/-- A pending request of a hash command is answered next. -/
theorem step_answer {s : State} (hsched : s.sched = []) (ha : isHash s.curAlg = true)
    (hq : s.hreq = .pending) : step s = .next (answerRequest s) := by
  have hdefault : defaultAgent s = .hashUnit := by
    cases hk : s.curAlg <;> simp_all [defaultAgent, engineEnabled, hashUnitEnabled, isHash]
  rw [step_default hsched, hdefault, agentStep, hashUnitStep_pending hq (hashOf_eq_compute ha _),
    answerRequest]

/-! ## The bytes of a CRC command -/

/-- `n` steps take in the next `n` bytes. -/
theorem runSteps_absorb (n : Nat) {s : State} (hs : s.seq = .running) (hsched : s.sched = [])
    (ha : isHash s.curAlg = false) (hn : s.idx.toNat + n ≤ s.lenL.toNat) :
    runSteps n s = .next (absorb (Memory.range s.buf s.idx.toNat n) s) := by
  induction n generalizing s with
  | zero => rw [Memory.range, absorb_nil, runSteps]
  | succ n ih =>
    have hi : s.idx < s.lenL := by rw [BitVec.lt_def]; omega
    have hidx : (absorb [nextBufByte s] s).idx.toNat = s.idx.toNat + 1 := toNat_idx_succ hi
    have hrest : (absorb [nextBufByte s] s).idx.toNat + n ≤ s.lenL.toNat := by omega
    rw [runSteps_succ n (step_absorb hs hsched ha hi), ih (s := absorb _ s) hs hsched ha hrest,
      absorb_absorb, hidx]
    rfl

/-- The state of a CRC command with all its bytes taken in. -/
def absorbAll (s : State) : State :=
  absorb (Memory.range s.buf s.idx.toNat (s.lenL.toNat - s.idx.toNat)) s

theorem absorbAll_idx {s : State} (hle : s.idx ≤ s.lenL) : (absorbAll s).idx = s.lenL := by
  simp only [absorbAll, absorb, Memory.length_range]
  bv_omega

/-- A CRC command ends one step after its last byte (40_command_model R110). -/
theorem runSteps_crc {s : State} (hs : s.seq = .running) (hsched : s.sched = [])
    (ha : isHash s.curAlg = false) (hle : s.idx ≤ s.lenL) :
    runSteps (s.lenL.toNat - s.idx.toNat + 1) s = .next (endCommand (absorbAll s)) := by
  have hn : s.idx.toNat + (s.lenL.toNat - s.idx.toNat) ≤ s.lenL.toNat := by
    rw [BitVec.le_def] at hle
    omega
  have hr : ReadyToEnd (absorbAll s) := (readyToEnd_crc_iff (s := absorbAll s) ha).mpr (absorbAll_idx hle)
  rw [runSteps_add _ 1 (runSteps_absorb _ hs hsched ha hn)]
  exact runSteps_one (step_end hs hsched hr)

/-! ## A hash command -/

/-- A hash command with its request pending ends after the answer and the finish (40_command_model R110). -/
theorem runSteps_hash {s : State} (hs : s.seq = .running) (hsched : s.sched = [])
    (ha : isHash s.curAlg = true) (hq : s.hreq = .pending) :
    runSteps 2 s = .next (endCommand (answerRequest s)) := by
  have hr : ReadyToEnd (answerRequest s) := (readyToEnd_hash_iff (s := answerRequest s) ha).mpr rfl
  rw [runSteps_succ 1 (step_answer hsched ha hq)]
  exact runSteps_one (step_end (s := answerRequest s) hs hsched hr)

/-- Settles O58: a CRC command has its bytes and its finish still to come, a hash command its answer at
most and its finish. -/
theorem runningCommandEnds : Obligations.RunningCommandEnds := by
  intro s hinv hs hsched
  refine ⟨?ends, fun ha => ⟨_, runSteps_crc hs hsched ha (hinv.progress hs ha), endCommand_seq _,
    endCommand_done _, fun k u hk hu => ?running⟩⟩
  case ends =>
    cases ha : isHash s.curAlg with
    | false =>
      exact ⟨_, _, by omega, runSteps_crc hs hsched ha (hinv.progress hs ha), endCommand_seq _,
        endCommand_done _⟩
    | true =>
      cases hq : s.hreq with
      | none => exact absurd hq (hinv.hashWaits hs ha)
      | pending => exact ⟨2, _, by omega, runSteps_hash hs hsched ha hq, endCommand_seq _, endCommand_done _⟩
      | answered =>
        have hr := (readyToEnd_hash_iff ha).mpr hq
        exact ⟨1, _, by omega, runSteps_one (step_end hs hsched hr), endCommand_seq _, endCommand_done _⟩
  case running =>
    have hle := hinv.progress hs ha
    rw [BitVec.le_def] at hle
    rw [runSteps_absorb k hs hsched ha (by omega)] at hu
    cases hu
    exact hs

/-! ## From the accept to the end -/

/-- `BUF[0..LEN)`, the buffer of a command about to be accepted. -/
def nextBuffer (s : State) : List Byte := Memory.range s.buf 0 s.len.toNat

/-- The state in which a RUN or COMPUTE accepted in IDLE ends (40_command_model R109), with its frame. -/
def commandEnd (op : Operation) (alg : AlgorithmKind) (s : State) : State :=
  { s with
    done := true, dvalid := true, dkind := alg, curOp := op, curAlg := alg
    lenL := s.len, idx := if isHash alg then 0 else s.len
    acc16 := if alg = .crc16 then crc16 (nextBuffer s) else s.acc16
    acc32 := if alg = .crc32 then ~~~ crc32 (nextBuffer s) else s.acc32
    hreq := if isHash alg then .none else s.hreq
    hans := if isHash alg then digestBytes (compute (nextBuffer s) alg) else s.hans
    dlen := BitVec.ofNat 32 (digestLength alg)
    dig := windowOf 32 (digestBytes (compute (nextBuffer s) alg))
    outlen := if op = .run then BitVec.ofNat 32 (stringLength alg) else 0
    outc := if op = .run then windowOf 64 (fmtDigest (compute (nextBuffer s) alg))
      else Vector.replicate 64 0
    tainted := false }

theorem acceptOf_resultsCleared (op : Operation) (alg : AlgorithmKind) (s : State) :
    ResultsCleared (acceptOf op alg s) := by
  rw [acceptOf_eq]
  exact ⟨rfl, rfl, rfl⟩

@[simp] theorem acceptOf_seq (op : Operation) (alg : AlgorithmKind) (s : State) :
    (acceptOf op alg s).seq = .running := by rw [acceptOf_eq]; rfl
@[simp] theorem acceptOf_curAlg (op : Operation) (alg : AlgorithmKind) (s : State) :
    (acceptOf op alg s).curAlg = alg := by rw [acceptOf_eq]; rfl
@[simp] theorem acceptOf_tainted (op : Operation) (alg : AlgorithmKind) (s : State) :
    (acceptOf op alg s).tainted = false := by rw [acceptOf_eq]; rfl
@[simp] theorem acceptOf_sched (op : Operation) (alg : AlgorithmKind) (s : State) :
    (acceptOf op alg s).sched = s.sched := by rw [acceptOf_eq]; rfl
@[simp] theorem acceptOf_idx (op : Operation) (alg : AlgorithmKind) (s : State) :
    (acceptOf op alg s).idx = 0 := by rw [acceptOf_eq]; rfl

theorem acceptOf_idx_le (op : Operation) (alg : AlgorithmKind) (s : State) :
    (acceptOf op alg s).idx ≤ (acceptOf op alg s).lenL := by
  rw [acceptOf_idx]
  exact Nat.zero_le _

/-- The HashUnit's answer for an accepted hash command is all that its finish step needs. -/
theorem endCommand_answerRequest (op : Operation) {alg : AlgorithmKind} {s : State} (hs : s.seq = .idle)
    (ha : isHash alg = true) :
    endCommand (answerRequest (acceptOf op alg { s with done := false })) = commandEnd op alg s := by
  have hc := acceptOf_resultsCleared op alg { s with done := false }
  have hd : digestReady (answerRequest (acceptOf op alg { s with done := false })) =
      compute (nextBuffer s) alg := by
    cases alg with
    | crc16 | crc32 => simp [isHash] at ha
    | md5 | sha1 | sha256 => rfl
  rw [endCommand_compute (s := answerRequest (acceptOf op alg { s with done := false }))
    (acceptOf_curAlg op alg _) (acceptOf_tainted op alg _) { hc with } hd, commandEnd, hs]
  cases alg with
  | crc16 | crc32 => simp [isHash] at ha
  | md5 | sha1 | sha256 => rfl

/-- The bytes of the buffer are all that the finish step of an accepted CRC command needs. -/
theorem endCommand_absorbAll (op : Operation) {alg : AlgorithmKind} {s : State} (hs : s.seq = .idle)
    (ha : isHash alg = false) :
    endCommand (absorbAll (acceptOf op alg { s with done := false })) = commandEnd op alg s := by
  have hc := acceptOf_resultsCleared op alg { s with done := false }
  have hd : digestReady (absorbAll (acceptOf op alg { s with done := false })) =
      compute (nextBuffer s) alg := by
    cases alg with
    | crc16 | crc32 => rfl
    | md5 | sha1 | sha256 => simp [isHash] at ha
  have hidx : (absorbAll (acceptOf op alg { s with done := false })).idx = s.len :=
    (absorbAll_idx (acceptOf_idx_le op alg _)).trans (acceptOf_lenL op alg _)
  rw [endCommand_compute (s := absorbAll (acceptOf op alg { s with done := false }))
    (acceptOf_curAlg op alg _) (acceptOf_tainted op alg _) { hc with } hd, hidx, commandEnd, hs,
    crc32_eq_not_foldl, BitVec.not_not]
  cases alg with
  | crc16 | crc32 => rfl
  | md5 | sha1 | sha256 => simp [isHash] at ha

/-- Every RUN and COMPUTE accepted in IDLE ends in the state of `commandEnd`, after its number of steps. -/
theorem run_command {op : Operation} (hop : op ≠ .format) (alg : AlgorithmKind) {s : State}
    (hs : s.seq = .idle) (hsched : s.sched = []) :
    ∃ t, exec (instrOf op alg) s = .next t ∧
      runSteps (commandSteps alg s.len) t = .next (commandEnd op alg s) := by
  rw [exec_accept op alg s hop, takeCommand_idle _ s hs]
  refine ⟨_, rfl, ?_⟩
  cases ha : isHash alg with
  | true =>
    rw [commandSteps, if_pos ha, ← endCommand_answerRequest op hs ha]
    exact runSteps_hash (acceptOf_seq op alg _) ((acceptOf_sched op alg _).trans hsched)
      (by rwa [acceptOf_curAlg]) (by rw [acceptOf_eq]; exact if_pos ha)
  | false =>
    have hsteps : commandSteps alg s.len = (acceptOf op alg { s with done := false }).lenL.toNat -
        (acceptOf op alg { s with done := false }).idx.toNat + 1 := by simp [commandSteps, ha]
    rw [hsteps, ← endCommand_absorbAll op hs ha]
    exact runSteps_crc (acceptOf_seq op alg _) ((acceptOf_sched op alg _).trans hsched)
      (by rwa [acceptOf_curAlg]) (acceptOf_idx_le op alg _)

/-- Settles O18: the end state of `run_command` for CRC16. -/
theorem crc16CommandResult : Obligations.Crc16CommandResult := by
  intro s hs hsched
  exact ⟨run_command (op := .compute) (by simp) .crc16 hs hsched,
    run_command (op := .run) (by simp) .crc16 hs hsched⟩

/-- Settles O19: the end state of `run_command` for CRC32. -/
theorem crc32CommandResult : Obligations.Crc32CommandResult := by
  intro s hs hsched
  exact ⟨run_command (op := .compute) (by simp) .crc32 hs hsched,
    run_command (op := .run) (by simp) .crc32 hs hsched⟩

/-- Settles O20: the end state of `run_command` for the kinds whose hash is defined. -/
theorem hashCommandResult : Obligations.HashCommandResult := by
  intro s alg h hs hsched hh
  cases alg with
  | crc16 | crc32 => cases hh
  | md5 | sha1 | sha256 =>
    cases hh
    exact ⟨run_command (op := .compute) (by simp) _ hs hsched,
      run_command (op := .run) (by simp) _ hs hsched⟩

/-- Settles O22: the results of `commandEnd` are functions of the buffer and the algorithm. -/
theorem computeIsPure : Obligations.ComputeIsPure := by
  intro s u alg hs hu hsched husched hlen hbuf
  obtain ⟨s0, hs0, hs1⟩ := run_command (op := .run) (by simp) alg hs hsched
  obtain ⟨u0, hu0, hu1⟩ := run_command (op := .run) (by simp) alg hu husched
  rw [← hlen] at hu1
  have hbuffer : nextBuffer s = nextBuffer u := hbuf
  refine ⟨s0, u0, _, _, hs0, hu0, hs1, hu1, ?_, rfl, ?_, rfl⟩ <;> simp only [commandEnd, hbuffer]

/-! ## FORMAT after COMPUTE -/

/-- The first bytes of a window are what was put there. -/
theorem take_windowOf {n : Nat} {l : List Byte} (hn : l.length ≤ n) :
    (windowOf n l).toList.take l.length = l := by
  apply List.ext_getElem
  · simpa using hn
  · intro i hi hl
    simp [windowOf_getElem, hl]

theorem digBytes_of_dig {l : List Byte} {n : Nat} {s : State} (hdig : s.dig = windowOf 32 l)
    (hl : l.length = n) (hn : n ≤ 32) : digBytes n s = l := by
  rw [digBytes, hdig, ← hl]
  exact take_windowOf (hl ▸ hn)

/-- A CRC-16 is its two bytes (10_state R33). -/
theorem u16_bytes (v : BitVec 16) : v.extractLsb' 8 8 ++ v.extractLsb' 0 8 = v := by
  rw [BitVec.extractLsb'_append_extractLsb'_eq_extractLsb' (by decide), BitVec.extractLsb'_eq_self]

/-- A CRC-32 is its four bytes (10_state R33). -/
theorem u32_bytes (v : BitVec 32) :
    v.extractLsb' 24 8 ++ v.extractLsb' 16 8 ++ v.extractLsb' 8 8 ++ v.extractLsb' 0 8 = v := by
  rw [BitVec.extractLsb'_append_extractLsb'_eq_extractLsb' (by decide),
    BitVec.extractLsb'_append_extractLsb'_eq_extractLsb' (by decide),
    BitVec.extractLsb'_append_extractLsb'_eq_extractLsb' (by decide), BitVec.extractLsb'_eq_self]

/-- A digest stored in DIG is read back whole (40_command_model R106). -/
theorem digestInDig_of_dig {alg : AlgorithmKind} {bytes : List Byte} {s : State}
    (hdig : s.dig = windowOf 32 (digestBytes (compute bytes alg))) :
    digestInDig alg s = compute bytes alg := by
  cases alg with
  | crc16 =>
    simp only [digestInDig, digU16, hdig, windowOf_getElem]
    exact congrArg Digest.u16 (u16_bytes _)
  | crc32 =>
    simp only [digestInDig, digU32, hdig, windowOf_getElem]
    exact congrArg Digest.u32 (u32_bytes _)
  | md5 => exact congrArg Digest.bytes (digBytes_of_dig hdig (hashMd5_length _) (by decide))
  | sha1 => exact congrArg Digest.bytes (digBytes_of_dig hdig (hashSha1_length _) (by decide))
  | sha256 => exact congrArg Digest.bytes (digBytes_of_dig hdig (hashSha256_length _) (by decide))

/-- Settles O21: COMPUTE leaves the digest in DIG, and its FORMAT the string that RUN writes. -/
theorem runEqualsComputeThenFormat : Obligations.RunEqualsComputeThenFormat := by
  intro s alg hs hsched
  obtain ⟨r0, hr0, hr1⟩ := run_command (op := .run) (by simp) alg hs hsched
  obtain ⟨c0, hc0, hc1⟩ := run_command (op := .compute) (by simp) alg hs hsched
  have hdig : digestInDig alg (commandEnd .compute alg s) = compute (nextBuffer s) alg :=
    digestInDig_of_dig rfl
  refine ⟨r0, _, c0, _, _, hr0, hr1, hc0, hc1, exec_format_held hs rfl rfl, ?_⟩
  rw [hdig]
  rfl

end Sys2Proof.Machine
end

section
/-! PROOFS. The accept of each command (40_command_model R102 to R106) and its check (60_exceptions R217). -/

namespace Sys2Proof

/-! ## `check` and `decode` -/

/-- Settles O1: the fifteen words are decoded one by one. -/
theorem legalWordsDecodeAsTabled : Obligations.LegalWordsDecodeAsTabled := by
  unfold Obligations.LegalWordsDecodeAsTabled
  decide

theorem AlgorithmKind.gt_code_iff : ∀ c : BitVec 3,
    c > 0b100 ↔ c = 0b101 ∨ c = 0b110 ∨ c = 0b111 := by
  decide

/-- A word that passes all three checks is a command (30_encoding R76). -/
theorem decode_ok_of_fields {w : Word} (hr : rsvdField w = 0) (ho : opField w ≠ 0b11)
    (ha : ¬ algField w > 0b100) : ∃ i, decode w = .ok i := by
  obtain ⟨op, hop⟩ := Option.ne_none_iff_exists'.mp (mt (Operation.ofCode_eq_none_iff _).mp ho)
  obtain ⟨alg, halg⟩ := Option.ne_none_iff_exists'.mp
    (mt (AlgorithmKind.ofCode_eq_none_iff _).mp (mt (AlgorithmKind.gt_code_iff _).mpr ha))
  exact ⟨instrOf op alg, by simp only [decode, if_neg (not_not.mpr hr), hop, halg]⟩

namespace Machine

/-- `check` by the fields of the word. -/
theorem check_fields (w : Word) (s : State) : check w s =
    if rsvdField w ≠ 0 then .invalidCommand
    else if opField w = 0b11 then .invalidCommand
    else if algField w > 0b100 then .invalidAlgorithm
    else if opField w = 0b10 ∧ s.dvalid = false then .digestNotValid
    else if opField w = 0b10 ∧ s.dkind.code ≠ algField w then .digestKindMismatch
    else .none :=
  rfl

/-- For a word that is no command `check` gives the code of decode's reason. -/
theorem check_illegal {w : Word} {e : Illegal} (s : State) (hd : decode w = .error e) :
    check w s = illegalCode e := by
  rw [check_fields]
  by_cases hr : rsvdField w = 0
  case neg =>
    cases hd.symm.trans (decode_reservedBits hr)
    exact if_pos hr
  rw [if_neg (not_not.mpr hr)]
  by_cases ho : opField w = 0b11
  case pos =>
    cases hd.symm.trans (decode_reservedOperation hr ho)
    exact if_pos ho
  rw [if_neg ho]
  by_cases ha : algField w > 0b100
  case pos =>
    cases hd.symm.trans (decode_noSuchAlgorithm hr ho ((AlgorithmKind.gt_code_iff _).mp ha))
    exact if_pos ha
  case neg =>
    obtain ⟨i, hi⟩ := decode_ok_of_fields hr ho ha
    cases hd.symm.trans hi

theorem operation_code_eq_format_iff (op : Operation) : op.code = 0b10 ↔ op = .format := by
  cases op <;> decide

/-- For a command `check` asks of FORMAT alone, for the digest of its kind (60_exceptions R214, R215). -/
theorem check_command {w : Word} {i : Instr} (s : State) (hd : decode w = .ok i) :
    check w s =
      if i.operation = .format ∧ s.dvalid = false then .digestNotValid
      else if i.operation = .format ∧ s.dkind ≠ i.algorithm then .digestKindMismatch
      else .none := by
  obtain ⟨hr, ha, ho⟩ := fields_of_decode hd
  have hop : i.operation.code ≠ 0b11 := by cases i.operation <;> decide
  have halg : ¬ i.algorithm.code > 0b100 := by cases i.algorithm <;> decide
  simp only [check_fields, hr, ha, ho, ne_eq, not_true_eq_false, if_false, hop, halg,
    operation_code_eq_format_iff, AlgorithmKind.code_injective]

theorem takeWord_command {w : Word} {i : Instr} (s : State) (hd : decode w = .ok i) :
    takeWord w s = exec i s := by
  rw [takeWord, hd]

/-- The accept of RUN and COMPUTE in IDLE (40_command_model R105). -/
theorem exec_accept_idle {i : Instr} {s : State} (hs : s.seq = .idle) (hop : i.operation ≠ .format) :
    exec i s = .next (acceptOf i.operation i.algorithm { s with done := false }) := by
  rw [← takeCommand_idle _ s hs, ← exec_accept _ _ s hop, instrOf_operation_algorithm]

/-- The accept of a command halts with the code that `check` gives it. -/
theorem exec_fault_of_check {w : Word} {i : Instr} {s : State} (hs : s.seq = .idle)
    (hd : decode w = .ok i) (hc : check w s ≠ .none) :
    exec i s = .next { s with seq := .halted, fcode := check w s, done := false } := by
  have hi := instrOf_operation_algorithm i
  obtain ⟨-, -, hfault⟩ := formatFaultsWithoutItsDigest
  obtain ⟨hnotValid, hotherKind⟩ := hfault s i.algorithm hs
  rw [check_command s hd] at hc ⊢
  split_ifs at hc ⊢ with hv hk
  · rw [hv.1] at hi
    rw [← hnotValid hv.2, hi]
  · rw [hk.1] at hi
    rw [← hotherKind (Bool.eq_true_of_not_eq_false fun h => hv ⟨hk.1, h⟩) hk.2, hi]
  · exact absurd rfl hc

/-- A command that `check` passes completes a FORMAT or starts a RUN or COMPUTE. -/
theorem exec_of_check_none {w : Word} {i : Instr} {s : State} (hs : s.seq = .idle)
    (hd : decode w = .ok i) (hc : check w s = .none) :
    ∃ t, exec i s = .next t ∧ t.fcode = s.fcode ∧
      (i.operation = .format → t.seq = .idle ∧ t.done = true) ∧
      (i.operation ≠ .format → t.seq = .running ∧ t.done = false) := by
  by_cases hf : i.operation = .format
  case neg =>
    rw [exec_accept_idle hs hf, acceptOf_eq]
    exact ⟨_, rfl, rfl, fun h => absurd h hf, fun _ => ⟨rfl, rfl⟩⟩
  case pos =>
    have hi := instrOf_operation_algorithm i
    rw [hf] at hi
    rw [check_command s hd] at hc
    split_ifs at hc with hv hk
    have hvalid : s.dvalid = true := Bool.eq_true_of_not_eq_false fun h => hv ⟨hf, h⟩
    have hkind : s.dkind = i.algorithm := not_not.mp fun h => hk ⟨hf, h⟩
    rw [← hi, exec_format_held hs hvalid hkind, hi]
    exact ⟨_, rfl, rfl, fun _ => ⟨hs, rfl⟩, fun h => absurd hf h⟩

/-- Settles O4: `check` and decode reject the same words, and `check` faults the FORMAT that its accept
faults. -/
theorem acceptStepFollowsCheck : Obligations.AcceptStepFollowsCheck := by
  intro w s hs
  cases hd : decode w with
  | error e =>
    rw [check_illegal s hd]
    exact ⟨fun _ => takeWord_illegal hd hs, fun hnone => by cases e <;> cases hnone⟩
  | ok i =>
    obtain ⟨-, -, ho⟩ := fields_of_decode hd
    have hword : BitVec.extractLsb' 0 2 w = 0b10 ↔ i.operation = .format := by
      rw [show BitVec.extractLsb' 0 2 w = i.operation.code from ho, operation_code_eq_format_iff]
    rw [takeWord_command s hd, ne_eq (BitVec.extractLsb' 0 2 w), hword]
    refine ⟨exec_fault_of_check hs hd, fun hc => ?_⟩
    obtain ⟨t, ht, hrest⟩ := exec_of_check_none hs hd hc
    exact ⟨t, i, rfl, ht, ht, hrest⟩

/-! ## The effect of each command -/

/-- Settles O9: the accept with the fields of `acceptOf_eq` written out. -/
theorem acceptOfRunAndCompute : Obligations.AcceptOfRunAndCompute := by
  intro i s hs hop
  rw [exec_accept_idle hs hop, acceptOf_eq]
  rfl

/-- Settles O10: the five are one accept, and DIG is read as each kind's digest. -/
theorem formatWritesTheStringOfTheDigest : Obligations.FormatWritesTheStringOfTheDigest := by
  refine ⟨fun v => rfl, fun v => rfl, fun s hs hv => ⟨fun hk => ?crc16, fun hk => ?crc32, fun hk => ?md5,
    fun hk => ?sha1, fun hk => ?sha256⟩⟩
  case crc16 | crc32 | md5 | sha1 => exact exec_format_held hs hv hk
  case sha256 =>
    have hall : digestInDig .sha256 s = .bytes s.dig.toList :=
      congrArg Digest.bytes (List.take_of_length_le (by simp))
    have hformat := exec_format_held hs hv hk
    rw [hall] at hformat
    exact hformat

/-- Settles O12: the first FORMAT leaves DIG as it was, so the second writes the same string. -/
theorem formatMayBeRepeated : Obligations.FormatMayBeRepeated := by
  intro s t alg hs hv hk ht
  rw [exec_format_held hs hv hk] at ht
  cases ht
  refine (exec_format_held (s := { s with done := true, outlen := _, outc := _ }) hs hv hk).trans ?_
  cases alg <;> rfl

/-! ## The HashUnit and the hashes -/

/-- Settles O15: a pending request is answered with the hash of the buffer, whose bytes are listed. -/
theorem hashUnitStepEffect : Obligations.HashUnitStepEffect := by
  intro s
  refine ⟨fun hq ha => ?md5, fun hq ha => ?sha1, fun hq ha => ?sha256, fun hq => ?hold⟩
  case md5 | sha1 | sha256 =>
    rw [hashUnitStep_pending hq (by rw [ha]; rfl), bufContents, Memory.range_eq_map]
  case hold =>
    obtain he | ⟨-, hpending, -⟩ := hashUnitStep_cases s
    · exact he
    · exact absurd hpending hq

/-- Settles O33: H-LEN is the type of each oracle's answer, and the three strings are computed. -/
theorem hashProperties : Obligations.HashProperties :=
  ⟨fun s => ⟨hashMd5_length s, hashSha1_length s, hashSha256_length s⟩, by decide, by decide, by decide⟩

end Machine

end Sys2Proof
end

section
/-! PROOFS. 60_exceptions R223 and 20_memory R52, R59: a tainted command ends with free result bytes, and the
engine and the HashUnit read nothing of BUF but the buffer. -/

namespace Sys2Proof.Machine

/-! ## Free result bytes -/

/-- A tainted result depends on no byte of the digest. -/
theorem resultBytes_tainted {s : State} (ht : s.tainted = true) (k : Nat) (bytes : List Byte) :
    resultBytes s k bytes = freeBytes k bytes.length :=
  if_pos ht

/-- Under a taint the finish step reads the lengths of the digest and of its string alone. -/
theorem finish_congr_of_tainted {d e : Digest} {s : State} (ht : s.tainted = true)
    (hbytes : (digestBytes d).length = (digestBytes e).length)
    (hstr : (fmtDigest d).length = (fmtDigest e).length) : finish d s = finish e s := by
  simp only [finish, storeDigest, writeOut, resultBytes_tainted ht, freeBytes_length, hbytes, hstr]

theorem finish_outlen (d : Digest) (s : State) : (finish d s).outlen =
    if s.curOp = .run then BitVec.ofNat 32 (fmtDigest d).length else s.outlen := by
  split_ifs with hop
  · exact finish_outlen_run d s hop
  · exact finish_outlen_compute d s hop

/-- A byte of a tainted window is the free one of its place. -/
theorem writeFront_tainted_getElem {s : State} (ht : s.tainted = true) {n : Nat} (v : Vector Byte n)
    (k : Nat) (bytes : List Byte) {i : Nat} (hi : i < n) (hl : i < bytes.length) :
    (writeFront v (resultBytes s k bytes))[i] = Config.freeByte (k + i) := by
  rw [resultBytes_tainted ht, writeFront_getElem, freeBytes_length, if_pos hl, freeBytes_getD _ _ _ hl]

/-- Settles O40: the result bytes of a tainted finish are free ones, and no other field asks for the taint. -/
theorem faultedCommandHasFreeResults : Obligations.FaultedCommandHasFreeResults := by
  intro d e s ht hbytes hstr
  refine ⟨finish_congr_of_tainted ht hbytes hstr, fun i hi hl => ?dig, fun hop i hi hl => ?outc, ?dlen,
    ?outlen, finish_dkind d s, finish_dvalid d s, finish_done d s, finish_seq d s⟩
  case dig =>
    simp only [finish_dig]
    exact writeFront_tainted_getElem ht _ _ _ hi hl
  case outc =>
    simp only [finish_outc_run d s hop]
    exact writeFront_tainted_getElem ht _ _ _ hi hl
  case dlen => rw [finish_dlen, finish_dlen]
  case outlen => rw [finish_outlen, finish_outlen]

/-! ## What is read of BUF -/

theorem finish_setBuf (d : Digest) (s : State) (m : Memory) :
    finish d { s with buf := m } = { finish d s with buf := m } := by
  cases hop : s.curOp <;> simp [finish, completeCommand, writeOut, storeDigest, resultBytes, hop]

theorem endCommand_setBuf (s : State) (m : Memory) :
    endCommand { s with buf := m } = { endCommand s with buf := m } :=
  congrArg (fun t : State => { t with hreq := if isHash s.curAlg then .none else s.hreq })
    (finish_setBuf (digestReady s) s m)

/-- Without a byte left and without its end reached the engine holds. -/
theorem engineStep_hold {s : State}
    (hread : ¬ (s.seq = .running ∧ isHash s.curAlg = false ∧ s.idx < s.lenL))
    (hend : ¬ (s.seq = .running ∧ ReadyToEnd s)) : engineStep s = s := by
  obtain he | ⟨hs, ha, hi, -⟩ | ⟨hs, hr, -⟩ := engineStep_absorb_or_end s
  · exact he
  · exact absurd ⟨hs, ha, hi⟩ hread
  · exact absurd ⟨hs, hr⟩ hend

/-- The engine reads the byte at IDX, and only below LEN_L. -/
theorem engineStep_setBuf (s : State) (m : Memory)
    (hm : ∀ a, a < s.lenL.toNat → Memory.read m a = Memory.read s.buf a) :
    engineStep { s with buf := m } = { engineStep s with buf := m } := by
  by_cases hread : s.seq = .running ∧ isHash s.curAlg = false ∧ s.idx < s.lenL
  case pos =>
    obtain ⟨hs, ha, hi⟩ := hread
    have hbyte : nextBufByte { s with buf := m } = nextBufByte s := hm s.idx.toNat hi
    rw [engineStep_absorb hs ha hi, engineStep_absorb (s := { s with buf := m }) hs ha hi, hbyte]
    rfl
  by_cases hend : s.seq = .running ∧ ReadyToEnd s
  case pos =>
    obtain ⟨hs, hr⟩ := hend
    rw [engineStep_end hs hr, engineStep_end (s := { s with buf := m }) hs hr, endCommand_setBuf]
  case neg =>
    rw [engineStep_hold hread hend, engineStep_hold (s := { s with buf := m }) hread hend]

/-- The HashUnit reads the bytes below LEN_L. -/
theorem hashUnitStep_setBuf (s : State) (m : Memory)
    (hm : ∀ a, a < s.lenL.toNat → Memory.read m a = Memory.read s.buf a) :
    hashUnitStep { s with buf := m } = { hashUnitStep s with buf := m } := by
  have hbuf : bufContents { s with buf := m } = bufContents s := Memory.range_congr _ _ _ hm
  simp only [hashUnitStep, hbuf]
  split <;> rfl

/-- Settles O44: both units' steps commute with a change of BUF outside the buffer. -/
theorem onlyTheBufferIsRead : Obligations.OnlyTheBufferIsRead :=
  fun s m hm => ⟨engineStep_setBuf s m hm, hashUnitStep_setBuf s m hm⟩

end Sys2Proof.Machine
end

section
/-! PROOFS. 10_state section 3: the registers as the host reads them. -/

namespace Sys2Proof.Machine

/-! ## STATUS -/

/-- Fields side by side are read back one by one, whatever the width of the uppermost. -/
theorem packed_fields {n : Nat} (r : BitVec n) (k : BitVec 3) (c : BitVec 4) (f v d b : Bool) :
    let w := r ++ k ++ c ++ BitVec.ofBool f ++ BitVec.ofBool v ++ BitVec.ofBool d ++ BitVec.ofBool b
    w.getLsbD 0 = b ∧ w.getLsbD 1 = d ∧ w.getLsbD 2 = v ∧ w.getLsbD 3 = f ∧
      w.extractLsb' 4 4 = c ∧ w.extractLsb' 8 3 = k ∧ w.extractLsb' 11 n = r := by
  refine ⟨?_, ?_, ?_, ?_, ?_, ?_, ?_⟩
  · simp [BitVec.getElem_append]
  · simp [BitVec.getElem_append]
  · simp [BitVec.getElem_append]
  · simp [BitVec.getElem_append]
  · simp [BitVec.extractLsb'_append_eq_of_le, BitVec.extractLsb'_append_eq_right]
  · simp [BitVec.extractLsb'_append_eq_of_le, BitVec.extractLsb'_append_eq_right]
  · simp [BitVec.extractLsb'_append_eq_of_le]

/-- Settles O34: STATUS is its fields side by side. -/
theorem statusFields : Obligations.StatusFields := by
  refine ⟨rfl, rfl, fun s => ?_⟩
  obtain ⟨hbusy, hdone, hdvalid, hfatal, hfcode, hdkind, hreserved⟩ :=
    packed_fields 0#21 s.dkind.code s.fcode.code (fatalBit s) s.dvalid s.done (busyBit s)
  exact ⟨(Bool.eq_iff_iff.mp hbusy).trans beq_iff_eq, hdone, hdvalid,
    (Bool.eq_iff_iff.mp hfatal).trans beq_iff_eq, hfcode, hdkind, hreserved⟩

/-- Settles O57: BUSY and FATAL are two values of STATE, and the invariant has DONE in IDLE only. -/
theorem statusBitsExclude : Obligations.StatusBitsExclude := by
  intro s
  obtain ⟨-, -, hfields⟩ := statusFields
  obtain ⟨hbusy, hdone, -, hfatal, -⟩ := hfields s
  refine ⟨?busyFatal, fun h => ?doneBusy⟩
  case busyFatal =>
    refine Bool.eq_false_of_not_eq_true fun hboth => ?_
    obtain ⟨hb, hf⟩ := Bool.and_eq_true_iff.mp hboth
    exact absurd ((hbusy.mp hb).symm.trans (hfatal.mp hf)) (by simp)
  case doneBusy =>
    refine Bool.eq_false_of_not_eq_true fun hboth => ?_
    obtain ⟨hd, hb⟩ := Bool.and_eq_true_iff.mp hboth
    obtain ⟨-, hidle⟩ := h.done (hdone ▸ hd)
    exact absurd (hidle.symm.trans (hbusy.mp hb)) (by simp)

/-! ## The other registers -/

/-- The low bits of a length register, as a mask. -/
theorem setWidth_extractLsb'_eq_and (x : Word) {n : Nat} (hn : n < 32) :
    (x.extractLsb' 0 n).setWidth 32 = x &&& BitVec.ofNat 32 (2 ^ n - 1) := by
  have hlt : 2 ^ n < 2 ^ 32 := Nat.pow_lt_pow_right (by decide) hn
  have hmod : x.toNat % 2 ^ n < 2 ^ n := Nat.mod_lt _ (Nat.two_pow_pos n)
  apply BitVec.eq_of_toNat_eq
  rw [BitVec.toNat_setWidth, BitVec.extractLsb'_toNat, BitVec.toNat_and, BitVec.toNat_ofNat,
    Nat.shiftRight_zero, Nat.mod_eq_of_lt (hmod.trans hlt), Nat.mod_eq_of_lt ((Nat.sub_le _ _).trans_lt hlt),
    Nat.and_two_pow_sub_one_eq_mod]

theorem windowWord_toList {n : Nat} (v : Vector Byte n) (o : Nat) (h : o + 3 < n) :
    windowWord v.toList o = v[o + 3] ++ v[o + 2] ++ v[o + 1] ++ v[o] := by
  simp [windowWord, h, show o + 2 < n by omega, show o + 1 < n by omega, show o < n by omega]

/-- DIGEST, word by word (10_state R30). -/
theorem regRead_digest {o : Nat} (h : o < 0x20) (s : State) :
    regRead (offDigest + o) s = windowWord s.dig.toList o := by
  simp only [regRead, offCmd, offStatus, offLen, offDlen, offOutlen, offDigest]
  rw [if_neg (by omega), if_neg (by omega), if_neg (by omega), if_neg (by omega), if_neg (by omega),
    if_pos (by omega), Nat.add_sub_cancel_left]

/-- OUT, word by word (10_state R31). -/
theorem regRead_out {o : Nat} (h : o < 0x40) (s : State) :
    regRead (offOut + o) s = windowWord s.outc.toList o := by
  simp only [regRead, offCmd, offStatus, offLen, offDlen, offOutlen, offDigest, offOut]
  rw [if_neg (by omega), if_neg (by omega), if_neg (by omega), if_neg (by omega), if_neg (by omega),
    if_neg (by omega), if_pos (by omega), Nat.add_sub_cancel_left]

/-- Reserved offsets (10_state R32). -/
theorem regRead_reserved {offset : Nat} (h : (0x14 ≤ offset ∧ offset < 0x20) ∨ 0x80 ≤ offset)
    (s : State) : regRead offset s = 0 := by
  simp only [regRead, offCmd, offStatus, offLen, offDlen, offOutlen, offDigest, offOut]
  rw [if_neg (by omega), if_neg (by omega), if_neg (by omega), if_neg (by omega), if_neg (by omega),
    if_neg (by omega), if_neg (by omega)]

/-- Settles O35: each register is one row of the register map. -/
theorem registerReadValues : Obligations.RegisterReadValues := by
  intro s
  refine ⟨rfl, rfl, setWidth_extractLsb'_eq_and s.dlen (n := 6) (by decide),
    setWidth_extractLsb'_eq_and s.outlen (n := 7) (by decide), fun k hk => ?digest, fun k hk => ?out,
    fun offset h => regRead_reserved h s⟩
  case digest => exact (regRead_digest (by omega) s).trans (windowWord_toList s.dig (4 * k) (by omega))
  case out => exact (regRead_out (by omega) s).trans (windowWord_toList s.outc (4 * k) (by omega))

/-! ## Reset -/

theorem windowWord_replicate_zero (n o : Nat) : windowWord (List.replicate n 0) o = 0 := by
  have hget : ∀ i, (List.replicate n (0 : Byte)).getD i 0 = 0 := fun i => by
    rw [List.getD_eq_getElem?_getD, List.getElem?_getD_replicate_default_eq]
  simp only [windowWord, hget]
  rfl

/-- Settles O48: the reset values are read row by row of the register map. -/
theorem resetReadsZero : Obligations.ResetReadsZero := by
  refine ⟨rfl, rfl, rfl, fun offset => ?_⟩
  unfold regRead
  split_ifs
  · rfl
  · rfl
  · rfl
  · rfl
  · rfl
  · exact windowWord_replicate_zero _ _
  · exact windowWord_replicate_zero _ _
  · rfl

/-- Settles O47: reset is the reset state but for BUF, the marks and the host's own, and IDLE without a
request gives neither unit a step. -/
theorem resetEffect : Obligations.ResetEffect := by
  intro s
  have hstatus : statusWord State.reset = 0 := by decide
  exact ⟨platformReset s, rfl, rfl, hstatus, rfl, rfl, rfl, rfl, rfl, rfl, rfl, rfl, rfl, rfl, rfl, rfl⟩

end Sys2Proof.Machine
end

section
/-! PROOFS. The host's accesses, one by one (20_memory section 4, 30_encoding section 4), and its writes to
CMD (40_command_model R102 to R104). -/

namespace Sys2Proof.Machine

/-! ## A write to CMD -/

theorem step_host {s : State} (ha : nextAgent s = .host) : step s = hostStep (takeTurn s) := by
  rw [step, ha, agentStep]

/-- Outside RUNNING the word is taken (40_command_model R102). -/
theorem hostStep_cmd {s : State} {w : Word} {rest : List HostOp}
    (hq : s.hostq = .regWrite offCmd 4 w :: rest) (hr : s.seq ≠ .running) :
    hostStep s = takeWord w { s with hostq := rest } := by
  have hr' : isRunning s = false := (isRunning_false_iff s).mpr hr
  simp only [hostStep, hq, hostRegWrite, hr']
  rfl

/-- In RUNNING it is held (40_command_model R103). -/
theorem hostStep_cmd_running {s : State} {w : Word} {rest : List HostOp}
    (hq : s.hostq = .regWrite offCmd 4 w :: rest) (hr : s.seq = .running) :
    hostStep s = .next s := by
  have hr' : isRunning s = true := (isRunning_iff s).mpr hr
  simp only [hostStep, hq, hostRegWrite, hr']
  rfl

/-- Settles O5: the host's turn takes the word, and the word is a command or the fatal event of its reason. -/
theorem stepRunsTheDecodedCommand : Obligations.StepRunsTheDecodedCommand := by
  intro s w rest ha hq hr
  have hstep : step s = takeWord w { s with hostq := rest, sched := s.sched.tail } := by
    rw [step_host ha, hostStep_cmd (s := takeTurn s) hq hr]
    rfl
  refine ⟨fun i hd => ?command, fun e hd hs => ?illegal⟩
  case command => rw [hstep, takeWord_command _ hd]
  case illegal =>
    exact hstep.trans (takeWord_illegal (s := { s with hostq := rest, sched := s.sched.tail }) hd hs)

/-- Settles O6: `withFetchWord` places the write and the turn that the step takes off again. -/
theorem fetchWordPresentsTheCommand : Obligations.FetchWordPresentsTheCommand := by
  intro s i hr
  have hword : BitVec.ofNat 32 ((encode i).toNat % 2 ^ 32) = encode i := by
    rw [ofNat_mod_two_pow le_rfl, BitVec.ofNat_toNat, BitVec.setWidth_eq]
  refine ⟨?decode, ?step⟩
  case decode => simp only [decodeTableWord, hword, decode_encode]
  case step =>
    rw [State.withFetchWord, hword, step_host rfl,
      hostStep_cmd (s := takeTurn (presentWord (encode i) s)) rfl hr, takeWord_command _ (decode_encode i)]
    rfl

/-- A command's own meaning has no effect outside IDLE. -/
theorem exec_not_idle (i : Instr) {s : State} (hs : s.seq ≠ .idle) : exec i s = .next s := by
  rw [← takeWord_command s (decode_encode i), takeWord_not_idle _ s hs]

/-- Settles O7: the write is held, and no meaning has an effect in RUNNING. -/
theorem commandWriteHoldsWhileRunning : Obligations.CommandWriteHoldsWhileRunning := by
  intro s w rest hs
  refine ⟨fun ha hq => ?held, fun i => exec_not_idle i (by simp [hs])⟩
  case held =>
    rw [step_host ha, hostStep_cmd_running (s := takeTurn s) hq hs]
    rfl

/-- Settles O8: the write is taken, and no word has an effect in HALTED. -/
theorem commandWriteIgnoredWhenHalted : Obligations.CommandWriteIgnoredWhenHalted := by
  intro s w rest hs ha hq
  rw [step_host ha, hostStep_cmd (s := takeTurn s) hq (by simp [hs]),
    takeWord_not_idle _ _ (by simp [hs])]
  rfl

/-! ## The other register accesses -/

/-- The accesses of 20_memory R51. -/
theorem regAdmitted_word {offset : Nat} (hal : offset % 4 = 0) (hlt : offset < 0x100) :
    regAdmitted offset 4 = true := by
  simp [regAdmitted, hal, hlt]

/-- Settles O36: an admitted write away from CMD is `regWrite`, which knows LEN alone. -/
theorem registerWriteEffect : Obligations.RegisterWriteEffect := by
  intro s v rest
  have hwrite : ∀ offset, offset % 4 = 0 → offset < 0x100 → offset ≠ 0x00 →
      s.hostq = .regWrite offset 4 v :: rest →
      hostStep s = .next (regWrite offset v { s with hostq := rest }) := fun offset hal hlt hne hq => by
    simp only [hostStep, hq, hostRegWrite, regAdmitted_word hal hlt, offCmd, hne, if_false]
    rfl
  refine ⟨fun hq => hwrite 0x08 rfl (by decide) (by decide) hq, fun offset hal hlt h0 h8 hq => ?_⟩
  rw [hwrite offset hal hlt h0 hq, regWrite, if_neg h8]

/-- Settles O37: the value joins the reads, and the access leaves the host's program. -/
theorem readsHaveNoSideEffect : Obligations.ReadsHaveNoSideEffect := by
  intro s rest
  refine ⟨fun offset hal hlt hq => ?reg, fun a ha hq => ?buf⟩
  case reg =>
    simp only [hostStep, hq, hostRegRead, regAdmitted_word hal hlt, if_true]
    rfl
  case buf => simp only [hostStep, hq, hostBufRead, if_pos ha]

/-! ## The pseudo-statements -/

theorem windowReads_eq_map (offset n : Nat) :
    windowReads offset n = (List.range n).map fun k => .regRead (offset + 4 * k) 4 := by
  induction n generalizing offset with
  | zero => rfl
  | succ n ih =>
    rw [windowReads, ih, List.range_succ_eq_map, List.map_cons, List.map_map]
    refine congrArg _ (List.map_congr_left fun k _ => ?_)
    simp [Nat.mul_add, Nat.add_assoc, Nat.add_comm]

theorem hostStep_wait {s : State} {rest : List HostOp} (hq : s.hostq = .wait :: rest) :
    hostStep s = .next (observeReg offStatus (if busyBit s then s else { s with hostq := rest })) := by
  simp only [hostStep, hq]

/-- Settles O42: WAIT is one read of STATUS, and the two window statements push the reads of their words. -/
theorem pseudoStatementsExpand : Obligations.PseudoStatementsExpand := by
  intro s rest
  refine ⟨fun hq hs => ?busy, fun hq hs => ?ready, fun hq => ?string, fun hq => ?digest⟩
  case busy =>
    have hb : busyBit s = true := by simp [busyBit, hs]
    rw [hostStep_wait hq, if_pos hb]
    rfl
  case ready =>
    have hb : ¬ busyBit s = true := by simp [busyBit, hs]
    rw [hostStep_wait hq, if_neg hb]
    rfl
  case string =>
    rw [← windowReads_eq_map]
    simp only [hostStep, hq]
    rfl
  case digest =>
    rw [← windowReads_eq_map]
    simp only [hostStep, hq]
    rfl

/-! ## BUFW -/

/-- With no command, no request and nobody named, the host moves. -/
theorem step_host_default {s : State} (hr : s.seq ≠ .running) (hq : s.hreq = .none)
    (hsched : s.sched = []) : step s = hostStep s := by
  have hdefault : defaultAgent s = .host := by
    simp [defaultAgent, engineEnabled, hashUnitEnabled, hr, hq]
  rw [step_default hsched, hdefault, agentStep]

/-- BUF after a BUFW. -/
def Memory.writeAll (m : Memory) (a : Nat) : List Byte → Memory
  | [] => m
  | b :: rest => Memory.writeAll (m.write a b) (a + 1) rest

theorem Memory.read_writeAll (m : Memory) (a x : Nat) (bytes : List Byte) :
    (m.writeAll a bytes).read x =
      if a ≤ x ∧ x < a + bytes.length then bytes.getD (x - a) 0 else m.read x := by
  induction bytes generalizing m a with
  | nil => rw [if_neg (by simp), Memory.writeAll]
  | cons b rest ih =>
    rw [Memory.writeAll, ih, List.length_cons]
    by_cases hx : x = a
    · subst hx
      rw [if_neg (by omega), if_pos (by omega), Memory.read_write_same, Nat.sub_self, List.getD_cons_zero]
    · rw [Memory.read_write_other m a x b hx]
      by_cases hin : a + 1 ≤ x ∧ x < a + 1 + rest.length
      · rw [if_pos hin, if_pos (by omega), show x - a = x - (a + 1) + 1 by omega, List.getD_cons_succ]
      · rw [if_neg hin, if_neg (by omega)]

theorem runSteps_bufw (bytes : List Byte) {s : State} {a : Nat} {rest : List HostOp}
    (hr : s.seq ≠ .running) (hreq : s.hreq = .none) (hsched : s.sched = [])
    (ha : a + bytes.length ≤ Config.bufSize) (hq : s.hostq = bufw a bytes ++ rest) :
    runSteps bytes.length s = .next { s with hostq := rest, buf := s.buf.writeAll a bytes } := by
  induction bytes generalizing s a with
  | nil =>
    cases hq
    rfl
  | cons b bytes ih =>
    rw [List.length_cons] at ha ⊢
    have hstep : step s =
        .next { s with hostq := bufw (a + 1) bytes ++ rest, buf := s.buf.write a b } := by
      rw [step_host_default hr hreq hsched]
      exact hostStep_bufWrite_not_running hq (by omega) hr
    rw [runSteps_succ _ hstep]
    exact ih (s := { s with hostq := _, buf := _ }) hr hreq hsched (by omega) rfl

/-- Settles O41: the statement is one write per byte. -/
theorem bufwWritesItsBytes : Obligations.BufwWritesItsBytes := by
  intro s a bytes rest hr hreq hsched ha hq
  refine ⟨_, runSteps_bufw bytes hr hreq hsched ha hq, fun i h => ?written, fun x hx => ?kept⟩
  case written =>
    rw [Memory.read_writeAll, if_pos (by omega), Nat.add_sub_cancel_left, List.getD_eq_getElem _ _ h]
  case kept => rw [Memory.read_writeAll, if_neg (by omega)]

/-! ## Where a step stops -/

/-- The host's next access is to a BUF address that does not exist (20_memory R50). -/
def ReachesBeyondBuf (s : State) : Prop :=
  ∃ a rest, 2 ^ 32 ≤ a ∧ (s.hostq = .bufRead a :: rest ∨ ∃ v, s.hostq = .bufWrite a v :: rest)

theorem reachesBeyondBuf_bufRead {s : State} {a : Nat} {rest : List HostOp}
    (hq : s.hostq = .bufRead a :: rest) : ReachesBeyondBuf s ↔ 2 ^ 32 ≤ a := by
  simp [ReachesBeyondBuf, hq]

theorem reachesBeyondBuf_bufWrite {s : State} {a : Nat} {v : Byte} {rest : List HostOp}
    (hq : s.hostq = .bufWrite a v :: rest) : ReachesBeyondBuf s ↔ 2 ^ 32 ≤ a := by
  simp [ReachesBeyondBuf, hq]

theorem hostRegWrite_next (offset width : Nat) (v : Word) (s t : State) :
    ∃ u, hostRegWrite offset width v s t = .next u := by
  unfold hostRegWrite
  split_ifs
  · exact ⟨_, rfl⟩
  · exact ⟨_, rfl⟩
  · exact takeWord_next v t
  · exact ⟨_, rfl⟩

/-- A step of the host answers a next state, or faults at an address that does not exist. -/
theorem hostStep_next_or_fault (s : State) :
    (¬ ReachesBeyondBuf s ∧ ∃ t, hostStep s = .next t) ∨
    (ReachesBeyondBuf s ∧ hostStep s = .fault .noSuchBufAddress) := by
  cases hq : s.hostq with
  | nil => exact .inl ⟨by simp [ReachesBeyondBuf, hq], _, by simp only [hostStep, hq]; rfl⟩
  | cons op rest =>
    cases op with
    | bufWrite a v =>
      rw [reachesBeyondBuf_bufWrite hq]
      simp only [hostStep, hq, hostBufWrite]
      by_cases ha : a < Config.bufSize
      · exact .inl ⟨Nat.not_le.mpr ha, _, if_pos ha⟩
      · exact .inr ⟨Nat.not_lt.mp ha, if_neg ha⟩
    | bufRead a =>
      rw [reachesBeyondBuf_bufRead hq]
      simp only [hostStep, hq, hostBufRead]
      by_cases ha : a < Config.bufSize
      · exact .inl ⟨Nat.not_le.mpr ha, _, if_pos ha⟩
      · exact .inr ⟨Nat.not_lt.mp ha, if_neg ha⟩
    | regWrite offset width v =>
      refine .inl ⟨by simp [ReachesBeyondBuf, hq], ?_⟩
      simp only [hostStep, hq]
      exact hostRegWrite_next offset width v s _
    | regRead offset width =>
      exact .inl ⟨by simp [ReachesBeyondBuf, hq], _, by simp only [hostStep, hq]; rfl⟩
    | wait => exact .inl ⟨by simp [ReachesBeyondBuf, hq], _, hostStep_wait hq⟩
    | readString => exact .inl ⟨by simp [ReachesBeyondBuf, hq], _, by simp only [hostStep, hq]; rfl⟩
    | readDigest => exact .inl ⟨by simp [ReachesBeyondBuf, hq], _, by simp only [hostStep, hq]; rfl⟩

/-- Settles O52: of the agents only the host can stop. -/
theorem stepStopsOnlyAtAMissingAddress : Obligations.StepStopsOnlyAtAMissingAddress := by
  intro s
  by_cases ha : nextAgent s = .host
  case pos =>
    rw [step_host ha]
    obtain ⟨hin, t, ht⟩ | ⟨hout, hf⟩ := hostStep_next_or_fault (takeTurn s)
    · rw [ht]
      exact ⟨by simp, by simp, fun h => absurd h.2 hin⟩
    · rw [hf]
      exact ⟨by simp, fun _ => ⟨ha, hout⟩, fun _ => ⟨_, rfl⟩⟩
  case neg =>
    have hnext : ∃ t, step s = .next t := by
      rw [step]
      cases hn : nextAgent s with
      | engine | hashUnit | platform => exact ⟨_, rfl⟩
      | host => exact absurd hn ha
    obtain ⟨t, ht⟩ := hnext
    rw [ht]
    exact ⟨by simp, by simp, fun h => absurd h.1 ha⟩

end Sys2Proof.Machine
end

section
/-! PROOFS. What no step does: leave HALTED without reset, clear a mark, enter RUNNING but by the accept
(60_exceptions R219, 10_state R40, 70_reset_and_hazards R242). -/

namespace Sys2Proof.Machine

/-! ## HALTED -/

/-- Settles O46: in HALTED the engine and the HashUnit hold and no word is taken. -/
theorem haltedUntilReset : Obligations.HaltedUntilReset := by
  intro a s t hinv hs ha ht
  have hr : s.seq ≠ .running := by simp [hs]
  cases a with
  | platform => exact absurd rfl ha
  | engine =>
    rw [agentStep, engineStep_not_running hr] at ht
    cases ht
    rfl
  | hashUnit =>
    have hq := hinv.request_none hr
    obtain he | ⟨-, hpending, -⟩ := hashUnitStep_cases s
    · rw [agentStep, he] at ht
      cases ht
      rfl
    · exact absurd (hq.symm.trans hpending) (by simp)
  | host =>
    obtain he | ⟨a, v, rest, -, -, rfl⟩ | ⟨rest, rfl⟩ | ⟨w, rest, -, -, hw⟩ := hostStep_cases ht
    · rw [he]
    · rw [if_neg (mt (isRunning_iff s).mp hr)]
    · have hidle : isRunning { s with hostq := rest } = false := (isRunning_false_iff _).mpr hr
      simp only [markRefused, hidle, Bool.or_false]
    · rw [takeWord_not_idle _ _ (by simp [hs])] at hw
      cases hw
      rfl

/-! ## The marks -/

@[simp] theorem endCommand_cfault (s : State) : (endCommand s).cfault = s.cfault :=
  finish_cfault (digestReady s) s

@[simp] theorem endCommand_refused (s : State) : (endCommand s).refused = s.refused :=
  finish_refused (digestReady s) s

/-- Every mark of one state is a mark of the other. -/
def KeepsMarks (s t : State) : Prop :=
  (s.cfault = true → t.cfault = true) ∧ (s.refused = true → t.refused = true)

theorem KeepsMarks.of_eq {s t : State} (hc : t.cfault = s.cfault) (hr : t.refused = s.refused) :
    KeepsMarks s t :=
  ⟨fun h => hc.trans h, fun h => hr.trans h⟩

theorem engineStep_keepsMarks (s : State) : KeepsMarks s (engineStep s) := by
  obtain he | ⟨-, -, -, he⟩ | ⟨-, -, he⟩ := engineStep_absorb_or_end s <;> rw [he]
  · exact .of_eq rfl rfl
  · exact .of_eq rfl rfl
  · exact .of_eq (endCommand_cfault s) (endCommand_refused s)

theorem hashUnitStep_keepsMarks (s : State) : KeepsMarks s (hashUnitStep s) := by
  obtain he | ⟨answer, -, -, -, he⟩ := hashUnitStep_cases s <;> rw [he] <;> exact .of_eq rfl rfl

theorem takeWord_keepsMarks {w : Word} {s t : State} (ht : takeWord w s = .next t) : KeepsMarks s t := by
  by_cases hs : s.seq = .idle
  · obtain ⟨c, -, rfl⟩ | ⟨op, alg, -, -, rfl⟩ | ⟨alg, -, -, -, rfl⟩ := takeWord_idle_cases hs ht
    · exact .of_eq rfl rfl
    · rw [acceptOf_eq]; exact .of_eq rfl rfl
    · exact .of_eq rfl rfl
  · rw [takeWord_not_idle w s hs] at ht
    cases ht
    exact .of_eq rfl rfl

theorem hostStep_keepsMarks {s t : State} (ht : hostStep s = .next t) : KeepsMarks s t := by
  obtain he | ⟨a, v, rest, -, -, rfl⟩ | ⟨rest, rfl⟩ | ⟨w, rest, -, -, hw⟩ := hostStep_cases ht
  · rw [he]; exact .of_eq rfl rfl
  · split_ifs
    · exact ⟨fun _ => rfl, id⟩
    · exact .of_eq rfl rfl
  · exact ⟨id, fun _ => rfl⟩
  · exact takeWord_keepsMarks (s := { s with hostq := rest }) hw

/-- Settles O49: no agent's step clears a mark, and reset keeps both. -/
theorem marksAreNeverCleared : Obligations.MarksAreNeverCleared := by
  intro s t ht
  obtain ⟨-, rfl⟩ | ⟨-, rfl⟩ | ⟨-, hhost⟩ | ⟨-, rfl⟩ := step_cases ht
  · exact engineStep_keepsMarks (takeTurn s)
  · exact hashUnitStep_keepsMarks (takeTurn s)
  · exact hostStep_keepsMarks (s := takeTurn s) hhost
  · exact ⟨id, id⟩

/-! ## Into RUNNING -/

/-- Of the words taken in IDLE only those of RUN and COMPUTE enter RUNNING. -/
theorem takeWord_enters_running {w : Word} {s t : State} (hs : s.seq ≠ .running)
    (ht : takeWord w s = .next t) (hr : t.seq = .running) :
    s.seq = .idle ∧ ∃ i : Instr, w = encode i ∧ i.operation ≠ .format := by
  by_cases hidle : s.seq = .idle
  · obtain ⟨c, -, rfl⟩ | ⟨op, alg, hop, hd, rfl⟩ | ⟨alg, -, -, -, rfl⟩ := takeWord_idle_cases hidle ht
    · cases hr
    · exact ⟨hidle, _, (decode_eq_ok_iff _ _).mp hd, by rwa [operation_instrOf]⟩
    · exact absurd hr hs
  · rw [takeWord_not_idle w s hidle] at ht
    cases ht
    exact absurd hr hs

/-- Settles O50: outside RUNNING the units keep STATE, reset gives IDLE, and the host enters RUNNING by a word
alone. -/
theorem onlyAcceptEntersRunning : Obligations.OnlyAcceptEntersRunning := by
  intro s t ht hs hr
  obtain ⟨-, rfl⟩ | ⟨-, rfl⟩ | ⟨ha, hhost⟩ | ⟨-, rfl⟩ := step_cases ht
  · rw [engineStep_not_running (s := takeTurn s) hs] at hr
    exact absurd hr hs
  · rw [hashUnitStep_seq] at hr
    exact absurd hr hs
  · obtain he | ⟨a, v, rest, -, -, rfl⟩ | ⟨rest, rfl⟩ | ⟨w, rest, hq, -, hw⟩ := hostStep_cases hhost
    · rw [he] at hr
      exact absurd hr hs
    · rw [if_neg (mt (isRunning_iff (takeTurn s)).mp hs)] at hr
      exact absurd hr hs
    · exact absurd hr hs
    · obtain ⟨hidle, i, rfl, hop⟩ := takeWord_enters_running (s := { takeTurn s with hostq := rest }) hs hw hr
      exact ⟨hidle, ha, i, rest, hq, hop⟩
  · cases hr

end Sys2Proof.Machine
end

section
/-! PROOFS. 70_reset_and_hazards R254: a run ends at its first end state. -/

namespace Sys2Proof.Machine

/-- The program is over and no command is in progress. -/
def AtEnd (s : State) : Prop := s.hostq = [] ∧ s.seq ≠ .running

theorem runEnded_iff (s : State) : runEnded s = true ↔ AtEnd s := by
  simp [runEnded, AtEnd]

theorem runEnded_false_iff (s : State) : runEnded s = false ↔ ¬ AtEnd s := by
  rw [← runEnded_iff, Bool.not_eq_true]

/-- `t` is the state after `k` steps from `s`, it is an end state, and no state before it is one. -/
def EndsAfter (k : Nat) (s t : State) : Prop :=
  runSteps k s = .next t ∧ AtEnd t ∧ ∀ j u, j < k → runSteps j s = .next u → ¬ AtEnd u

theorem endsAfter_zero (s t : State) : EndsAfter 0 s t ↔ AtEnd s ∧ s = t := by
  constructor
  · rintro ⟨ht, hend, -⟩
    cases ht
    exact ⟨hend, rfl⟩
  · rintro ⟨hend, rfl⟩
    exact ⟨rfl, hend, fun j u hj => absurd hj (Nat.not_lt_zero j)⟩

/-- A run that has ended takes no step more. -/
theorem EndsAfter.eq_zero {k : Nat} {s t : State} (h : EndsAfter k s t) (hs : AtEnd s) : k = 0 := by
  obtain ⟨-, -, hbefore⟩ := h
  exact Nat.eq_zero_of_not_pos fun hk => hbefore 0 s hk rfl hs

/-- Before its end a run ends one step later than from its next state. -/
theorem endsAfter_succ {k : Nat} {s u t : State} (hs : ¬ AtEnd s) (hu : step s = .next u) :
    EndsAfter (k + 1) s t ↔ EndsAfter k u t := by
  rw [EndsAfter, EndsAfter, runSteps_succ k hu]
  refine and_congr_right' (and_congr_right' ⟨fun h j v hj hv => ?_, fun h j v hj hv => ?_⟩)
  · exact h (j + 1) v (Nat.succ_lt_succ hj) (by rwa [runSteps_succ j hu])
  · cases j with
    | zero =>
      cases hv
      exact hs
    | succ j =>
      rw [runSteps_succ j hu] at hv
      exact h j v (Nat.lt_of_succ_lt_succ hj) hv

/-- Where a step stops, no run goes on. -/
theorem not_endsAfter_succ {k : Nat} {s t : State} (hs : ∀ u, step s ≠ .next u) :
    ¬ EndsAfter (k + 1) s t := by
  rintro ⟨ht, -, -⟩
  cases hstep : step s with
  | next u => exact hs u hstep
  | fault r => simp [runSteps, hstep] at ht
  | refused r => simp [runSteps, hstep] at ht

theorem exists_endsAfter_of_atEnd (n : Nat) {s : State} (t : State) (hs : AtEnd s) :
    (∃ k, k ≤ n ∧ EndsAfter k s t) ↔ s = t := by
  constructor
  · rintro ⟨k, -, h⟩
    obtain rfl := h.eq_zero hs
    exact ((endsAfter_zero s t).mp h).2
  · rintro rfl
    exact ⟨0, Nat.zero_le n, (endsAfter_zero s s).mpr ⟨hs, rfl⟩⟩

/-- A run that has not ended has a step to take. -/
theorem EndsAfter.exists_succ {k : Nat} {s t : State} (h : EndsAfter k s t) (hs : ¬ AtEnd s) :
    ∃ m, k = m + 1 := by
  refine Nat.exists_eq_succ_of_ne_zero fun hk => ?_
  rw [hk, endsAfter_zero] at h
  exact hs h.1

/-- The end state of a run is the first one, within the number of steps allowed. -/
theorem runToEnd_eq_some_iff (n : Nat) (s t : State) :
    runToEnd n s = some t ↔ ∃ k, k ≤ n ∧ EndsAfter k s t := by
  induction n generalizing s with
  | zero =>
    by_cases hs : AtEnd s
    · rw [exists_endsAfter_of_atEnd 0 t hs, runToEnd_ended 0 ((runEnded_iff s).mpr hs), Option.some.injEq]
    · have hnone : runToEnd 0 s = none := by simp [runToEnd, (runEnded_false_iff s).mpr hs]
      rw [hnone]
      refine ⟨nofun, fun ⟨k, hk, h⟩ => ?_⟩
      obtain ⟨m, rfl⟩ := h.exists_succ hs
      exact absurd hk (Nat.not_succ_le_zero m)
  | succ n ih =>
    by_cases hs : AtEnd s
    · rw [exists_endsAfter_of_atEnd (n + 1) t hs, runToEnd_ended (n + 1) ((runEnded_iff s).mpr hs),
        Option.some.injEq]
    have hrun := (runEnded_false_iff s).mpr hs
    constructor
    · intro h
      obtain ⟨hend, -⟩ | ⟨-, u, hu, hrest⟩ := runToEnd_succ_cases h
      · exact absurd (hend.symm.trans hrun) (by simp)
      · obtain ⟨k, hk, hends⟩ := (ih u).mp hrest
        exact ⟨k + 1, Nat.succ_le_succ hk, (endsAfter_succ hs hu).mpr hends⟩
    · rintro ⟨k, hk, h⟩
      obtain ⟨m, rfl⟩ := h.exists_succ hs
      by_cases hstep : ∃ u, step s = .next u
      · obtain ⟨u, hu⟩ := hstep
        rw [runToEnd_step n hrun hu]
        exact (ih u).mpr ⟨m, Nat.le_of_succ_le_succ hk, (endsAfter_succ hs hu).mp h⟩
      · exact absurd h (not_endsAfter_succ fun u hu => hstep ⟨u, hu⟩)

/-- A run has one end. -/
theorem EndsAfter.unique {j k : Nat} {s t u : State} (ht : EndsAfter j s t) (hu : EndsAfter k s u) :
    t = u := by
  obtain ⟨hjt, htend, htbefore⟩ := ht
  obtain ⟨hku, huend, hubefore⟩ := hu
  obtain hlt | rfl | hlt := Nat.lt_trichotomy j k
  · exact absurd htend (hubefore j t hlt hjt)
  · exact Host.Outcome.next.inj (hjt.symm.trans hku)
  · exact absurd huend (htbefore k u hlt hku)

theorem endSucceeded_iff (s : State) : endSucceeded s = true ↔
    s.seq ≠ .halted ∧ s.cfault = false ∧ s.refused = false := by
  simp [endSucceeded, fatalBit, marksClear]

/-- Settles O59: the end state is the one of `EndsAfter`, and the observation and the success are its own. -/
theorem runEndsAtTheFirstEndState : Obligations.RunEndsAtTheFirstEndState := by
  refine ⟨runToEnd_eq_some_iff, fun m n s t u ht hu => ?unique, fun n s t ht => ⟨?observation, ?success⟩,
    fun n s hn => ?notEnded⟩
  case unique =>
    obtain ⟨j, -, hj⟩ := (runToEnd_eq_some_iff m s t).mp ht
    obtain ⟨k, -, hk⟩ := (runToEnd_eq_some_iff n s u).mp hu
    exact hj.unique hk
  case observation =>
    rw [observeRun, ht]
    rfl
  case success =>
    rw [runSucceeded, ht]
    exact endSucceeded_iff t
  case notEnded =>
    rw [observeRun, runSucceeded, hn]
    exact ⟨rfl, rfl⟩

end Sys2Proof.Machine
end
